-- ==== Sys2Proof/Word.lean ====
section
/-! DEFINITION. The word types of the slot link (R170), tables with one entry per socket or per rail
type, and the plain arithmetic of "Conventions" in 00_scope: clamp, saturating sums, ceiling. -/

namespace Sys2Proof

/-- One byte of a frame or of the identity memory. -/
abbrev Byte := BitVec 8
/-- A two-byte field; also a set of socket positions (R170). -/
abbrev Half := BitVec 16
/-- A four-byte field. -/
abbrev Word := BitVec 32

/-- A socket position 0 to 15 (R1). -/
abbrev Socket := Fin 16
/-- A stimulus slot 0 to 7 (R101). -/
abbrev SlotId := Fin 8
/-- A profile number 0 to 3 (R49). -/
abbrev ProfileId := Fin 4

/-- A table with one entry per socket position. -/
abbrev Tab (α : Type) := Vector α 16

/-- The two supply rails of a socket. -/
inductive RailKind where
  | core
  | aux
  deriving DecidableEq, Repr, Inhabited

/-- One value for CORE and one for AUX. -/
structure PerRail (α : Type) where
  core : α
  aux : α
  deriving DecidableEq, Repr, Inhabited

/-- The value for one rail type. -/
def PerRail.get {α : Type} (p : PerRail α) : RailKind → α
  | .core => p.core
  | .aux => p.aux

/-- Replace the value of one rail type. -/
def PerRail.set {α : Type} (p : PerRail α) : RailKind → α → PerRail α
  | .core, x => { p with core := x }
  | .aux, x => { p with aux := x }

/-- Read one entry of a table. -/
def look {α : Type} {n : Nat} (v : Vector α n) (i : Fin n) : α := v[i.val]

/-- Replace one entry of a table. -/
def put {α : Type} {n : Nat} (v : Vector α n) (i : Fin n) (x : α) : Vector α n :=
  v.set i.val x i.isLt

/-- The table of the values of `f`, one per socket. -/
def tab16 {α : Type} (f : Socket → α) : Tab α :=
  #v[f 0, f 1, f 2, f 3, f 4, f 5, f 6, f 7, f 8, f 9, f 10, f 11, f 12, f 13, f 14, f 15]

/-- The table of the values of `f`, one per stimulus slot, fail kind or weight index. -/
def tab8 {α : Type} (f : Fin 8 → α) : Vector α 8 :=
  #v[f 0, f 1, f 2, f 3, f 4, f 5, f 6, f 7]

/-- All socket positions in rising order. -/
def allSockets : List Socket := [0, 1, 2, 3, 4, 5, 6, 7, 8, 9, 10, 11, 12, 13, 14, 15]

/-- All stimulus slots in rising order. -/
def allSlots : List SlotId := [0, 1, 2, 3, 4, 5, 6, 7]

/-- Clamp of "Arithmetic" (00_scope) on whole numbers from 0 up. -/
def clampNat (lo hi x : Nat) : Nat := if x < lo then lo else if hi < x then hi else x

/-- Clamp of "Arithmetic" (00_scope) on signed numbers. -/
def clampInt (lo hi x : Int) : Int := if x < lo then lo else if hi < x then hi else x

/-- A sum that stops at its ceiling (00_scope, "saturating"). -/
def satAdd (cap a b : Nat) : Nat := if cap < a + b then cap else a + b

/-- Division rounded toward plus infinity (00_scope, "Ceiling"). -/
def ceilDiv (a b : Nat) : Nat := (a + b - 1) / b

/-- A number rounded down to a multiple of 5 (R17, R31). -/
def floorFive (x : Nat) : Nat := x / 5 * 5

/-- Bit n of a set of sockets (R170). -/
def inSet (m : Half) (k : Socket) : Bool := m.getLsbD k.val

/-- The set of the sockets for which `f` holds, bit n for socket n (R170). -/
def setOf (f : Socket → Bool) : Half :=
  BitVec.ofNat 16 (allSockets.foldl (fun n k => if f k then n + 2 ^ k.val else n) 0)

end Sys2Proof
end

