-- ==== Sys2Proof/Syntax.lean ====
section
/-! DEFINITION. The commands: one constructor per row of spec/opcode_table.json, with the operands each
event carries (log 25). Requests carry their payload fields at the width of R170, so that the RANGE
checks meet every value a frame can hold. -/

namespace Sys2Proof

/-- The eight fail kinds in kind-code order (R132). -/
inductive FailKind where
  | overcurrent | undercurrent | regFault | overtemp | runaway | sensor | activity | dutAlarm
  deriving DecidableEq, Repr

/-- Direction of an ACTIVITY fail (R126, R132). -/
inductive Direction where
  | low | high
  deriving DecidableEq, Repr

/-- A fail message (R132). -/
structure FailMsg where
  socket : Socket
  kind : FailKind
  detail : Half
  /-- present for ACTIVITY alone -/
  direction : Option Direction
  deriving DecidableEq, Repr

/-- What a stop order asks for (R6): the destination, with the hold reason and the kind it carries. -/
inductive OrderDest where
  | toIdle
  | toDone
  /-- HELD, reason POLICY, carrying the fail kind -/
  | toPolicyHold (kind : FailKind)
  /-- HELD, reason SHED -/
  | toShedHold
  /-- RETIRED, carrying the fail kind -/
  | toRetired (kind : FailKind)
  deriving DecidableEq, Repr

/-- A stop order (R6). -/
structure StopOrder where
  socket : Socket
  dest : OrderDest
  deriving DecidableEq, Repr

/-- Level of a monitor or alarm line. -/
inductive LineLevel where
  | high | low
  deriving DecidableEq, Repr

/-- What arrives on the RS-485 line: a byte, or a byte whose stop bit reads low (R164, R166). -/
inductive LineItem where
  | byte (b : Byte)
  | framingError
  deriving DecidableEq, Repr

/-- The dispatch timers (R104). -/
inductive TimerId where
  | timer0 | timer1
  deriving DecidableEq, Repr

/-- The lines the part reads at once when a reset ends (R23, R64, R160, R164). -/
structure Pins where
  brdPresent : Bool
  ovenOk : Bool
  address : BitVec 6
  rate : BitVec 2
  /-- set of sockets whose RFLT_N is asserted -/
  rflt : Half
  deriving DecidableEq, Repr

/-- A profile step as SetProfile carries it: kind, rail, first value, second value (R170). -/
structure RawStep where
  kind : Byte
  rail : Byte
  first : Half
  second : Half
  deriving DecidableEq, Repr

/-- The values of SetSocketParams (R17, R170). -/
structure ParamValues where
  target : Half
  ramp : Half
  kp : Half
  ki : Half
  core : Half
  aux : Half
  upProfile : Byte
  downProfile : Byte
  edge : Byte
  stressTarget : Word
  deriving DecidableEq, Repr

/-- The configuration values of SetSlot (R102, R170). -/
structure SlotValues where
  pattern : Byte
  length : Half
  mask : Half
  dispatch : Byte
  retry : Byte
  edgeMin : Half
  edgeMax : Half
  deriving DecidableEq, Repr

/-- The commands, in the table's order. -/
inductive Instr where
  | identify
  | getBoardStatus
  | attach
  | setBoardField (code index : Byte) (value : Word)
  | getBoardField (code index : Byte)
  | setProfile (profile : Byte) (steps : List RawStep)
  | getProfile (profile : Byte)
  | setPolicy (kind action threshold bin : Byte)
  | getPolicy
  | setSocketParams (socket : Byte) (values : ParamValues)
  | getSocket (socket : Byte)
  | setSlot (slot : Byte) (values : SlotValues)
  | getSlot (slot : Byte)
  | sendSlot (slot : Byte)
  | abortSlot (slot : Byte)
  | setTimers (interval0 interval1 : Word)
  | start
  | pause (broadcast : Bool)
  | resume (broadcast : Bool)
  | shutdown
  | quench (broadcast : Bool)
  | clear
  | startSocket (socket : Byte)
  | stopSocket (socket : Byte)
  | retrySocket (socket : Byte)
  | clearSocket (socket : Byte)
  | readFails (n : Byte)
  | setAlarmEnables (latch report : Half)
  | readAlarms (clearSet : Half)
  | lineByte (item : LineItem)
  | gapTimerExpiry
  | replyEnd
  | powerOnReset
  | resetNAsserted
  | clockLoss
  | resetEnd (pins : Pins)
  | brdPresentAsserted
  | brdPresentDeasserted
  /-- the bytes of the identity memory, and the sets of sockets whose MON and ALM lines are HIGH -/
  | attachReadSuccess (image : List Byte) (mon alm : Half)
  | attachReadFailure (image : List Byte)
  | attachNoAnswer
  | attachTimeout
  | roundBoundary
  | channelArrival (code : BitVec 12)
  | riseEnd (socket : Socket) (rail : RailKind)
  | fallEnd (socket : Socket) (rail : RailKind)
  | dwellEnd (socket : Socket)
  | rfltNLevel (socket : Socket) (asserted : Bool)
  | upProfileComplete (socket : Socket)
  | downProfileComplete (socket : Socket)
  | stopOrder (order : StopOrder)
  | carrierPeriodStart
  | dispatchTimerExpiry (timer : TimerId)
  /-- the level of DLV_CHK: true for high -/
  | burstEnd (dlvChk : Bool)
  | monitorEdge (socket : Socket) (level : LineLevel)
  | windowClose (socket : Socket)
  | alarmLevelTaken (socket : Socket) (level : LineLevel)
  | failTaken (fail : FailMsg)
  | tick
  | holdExpiry (socket : Socket)
  | ovenOkLevel (asserted : Bool)
  | heaterOnTimeEnd (socket : Socket)
  deriving DecidableEq, Repr

end Sys2Proof
end

