-- ==== Sys2Proof/Decode.lean ====
section
/-! DEFINITION. The table gives its rows no bits, so no word spells a command (log 29). -/

namespace Sys2Proof

/-- The command a word spells by the table's bits: the table gives none. -/
def decodeTableWord (_nbits _w : Nat) : Option Instr := none

end Sys2Proof
end

