-- ==== Sys2Proof/Config.lean ====
section
/-! DEFINITION. What the part and its board fix: the board record (R22), the part's constants, and the
free values, which have no body, so that no proof can see what they are. -/

namespace Sys2Proof

/-- The board limits of one rail type in the board record (R22). -/
structure RailLimits where
  /-- setpoint minimum, mV -/
  spMin : Nat
  /-- setpoint maximum, mV -/
  spMax : Nat
  /-- current at converter code 4096, 10 mA -/
  fullScale : Nat
  /-- trip current, 10 mA -/
  trip : Nat
  /-- declared maximum power, 0.1 W -/
  maxPower : Nat
  /-- rise time, ms -/
  riseMs : Nat
  /-- fall time, ms -/
  fallMs : Nat
  deriving DecidableEq, Repr, Inhabited

/-- The board record of the identity memory (R22, R172). -/
structure BoardRecord where
  layoutVersion : Nat
  typeCode : Half
  serial : List Byte
  population : Half
  /-- heater rating per socket, 0.1 W -/
  heaterRating : Tab Nat
  /-- temperature calibration offset per socket, 1/16 °C -/
  calibration : Tab Int
  /-- absolute temperature limit, 1/16 °C -/
  absLimit : Int
  rail : PerRail RailLimits
  /-- ns per stimulus vector -/
  vectorPeriod : Nat
  /-- response latency, ms -/
  latency : Nat
  /-- glitch filter width, 50 ns -/
  glitchWidth : Nat
  /-- alarm active level: set of sockets whose level is HIGH -/
  alarmHigh : Half
  /-- bulk power limit, 0.1 W -/
  bulkLimit : Nat
  /-- bulk minimum voltage, mV -/
  bulkMinimum : Nat
  deriving DecidableEq, Repr, Inhabited

/-- The places of a reply at which a number is sent although it is absent and the spec names no value
for it (log 12). -/
inductive AbsentSite where
  | boardValue | overrideValue | inForceValue
  | bandIndex | railTime (k : Socket) (r : RailKind)
  | dwellTime | typeCode | population | lastPopulation | allowance
  | busMask | busTime | timerTime (second : Bool) | nextTick
  deriving DecidableEq, Repr

/-- FREE VALUE: which of the events that are due together is taken first (R5, R70, R140 allow either
order; log 3). -/
opaque Config.pick : Nat → Nat

/-- FREE VALUE: which of two orders a step takes where the spec allows both (R88, R94, R106; log 9, 10
and 26). -/
opaque Config.coin : Nat → Bool

/-- FREE VALUE: the number sent for a value that is absent, where the spec names none (log 12). -/
opaque Config.absentNumber : AbsentSite → Nat → Nat

/-- FREE VALUE: what a reader would find as board values in force while the board-derived fields are
empty; R21 says that no value is in force then (log 11). -/
opaque Config.absentBoard : BoardRecord

/-- The part code that Identify returns (R170, kind 0x01). -/
def Config.partCode : Nat := 0x2416
/-- Spacing of round boundaries in µs (R35). -/
def Config.roundMicros : Nat := 50000
/-- Spacing of the codes of one round in µs (R37). -/
def Config.codeMicros : Nat := 400
/-- Carrier period in µs (R69). -/
def Config.carrierMicros : Nat := 10000
/-- The fixed device address of the identity memory on the two-wire line, in 7-bit form (R26). -/
def Config.memoryDevice : BitVec 7 := 0x50#7
/-- The memory offset from which the record is read (R26). -/
def Config.memoryOffset : Nat := 0
/-- Limit of the identity-memory read in µs (R26). -/
def Config.readMicros : Nat := 150000
/-- Spacing of run-clock ticks in µs (R148). -/
def Config.tickMicros : Nat := 1000000
/-- Gap timer in µs (R166). -/
def Config.gapMicros : Nat := 2000
/-- The run clock's ceiling (R147). -/
def Config.clockCeiling : Nat := 4294967295
/-- The ceiling of a stress credit (R152). -/
def Config.creditCeiling : Nat := 4294967295
/-- The largest stress target in seconds (R1). -/
def Config.targetCeiling : Nat := 16777215
/-- Entries the fail log holds (R142). -/
def Config.logDepth : Nat := 64

end Sys2Proof
end

