-- ==== Sys2Proof/Machine/Record.lean ====
section
/-! DEFINITION. The CRC-16 of frames and records (R22, R165), byte fields, and the reading and checking of
the board record (R22, R26, R172). -/

namespace Sys2Proof.Machine

/-- One bit of the CRC-16 with polynomial 0x1021, most significant bit first (R22). -/
def crcBit (c : Half) : Half := if c.msb then (c <<< 1) ^^^ 0x1021#16 else c <<< 1

/-- One byte of the CRC-16, most significant bit first (R22). -/
def crcByte (c : Half) (b : Byte) : Half :=
  crcBit (crcBit (crcBit (crcBit (crcBit (crcBit (crcBit (crcBit
    (c ^^^ (b.setWidth 16 <<< 8)))))))))

/-- The CRC-16: initial value 0xFFFF, no final inversion (R22, R165). -/
def crc16 (bytes : List Byte) : Half := bytes.foldl crcByte 0xFFFF#16

/-- The byte at an offset, 0 beyond the end. -/
def byteAt (bytes : List Byte) (i : Nat) : Nat := (bytes.getD i 0#8).toNat

/-- The two-byte field at an offset, least significant byte first (R170). -/
def halfAt (bytes : List Byte) (i : Nat) : Nat := byteAt bytes i + 256 * byteAt bytes (i + 1)

/-- The four-byte field at an offset, least significant byte first (R170). -/
def wordAt (bytes : List Byte) (i : Nat) : Nat := halfAt bytes i + 65536 * halfAt bytes (i + 2)

/-- The signed two-byte field at an offset (R170: two's complement). -/
def signedHalfAt (bytes : List Byte) (i : Nat) : Int := (BitVec.ofNat 16 (halfAt bytes i)).toInt

/-- The signed byte at an offset (R172, calibration offset). -/
def signedByteAt (bytes : List Byte) (i : Nat) : Int := (BitVec.ofNat 8 (byteAt bytes i)).toInt

/-- The reasons an identity-memory read fails (R21, R26), in the order of R21. -/
inductive ReadFailure where
  | noAnswer | badCheck | badVersion | badField
  deriving DecidableEq, Repr

/-- The outcome of a read (R26). -/
inductive ReadOutcome where
  | good (record : BoardRecord)
  | bad (reason : ReadFailure)
  deriving DecidableEq, Repr

/-- The seven fields of one rail type, 14 bytes from `o` on (R172). -/
def parseRail (m : List Byte) (o : Nat) : RailLimits where
  spMin := halfAt m o
  spMax := halfAt m (o + 2)
  fullScale := halfAt m (o + 4)
  trip := halfAt m (o + 6)
  maxPower := halfAt m (o + 8)
  riseMs := halfAt m (o + 10)
  fallMs := halfAt m (o + 12)

/-- The fields of the board record at their offsets (R172): n = record length − 95, B = 4 + n. -/
def parseRecord (m : List Byte) : BoardRecord :=
  let n := byteAt m 1 - 95
  let b := 4 + n
  { layoutVersion := byteAt m 0
    typeCode := BitVec.ofNat 16 (halfAt m 2)
    serial := (m.drop 4).take n
    population := BitVec.ofNat 16 (halfAt m b)
    heaterRating := tab16 fun k => halfAt m (b + 2 + 2 * k.val)
    calibration := tab16 fun k => signedByteAt m (b + 34 + k.val)
    absLimit := signedHalfAt m (b + 50)
    rail := ⟨parseRail m (b + 52), parseRail m (b + 66)⟩
    vectorPeriod := halfAt m (b + 80)
    latency := halfAt m (b + 82)
    glitchWidth := byteAt m (b + 84)
    alarmHigh := BitVec.ofNat 16 (halfAt m (b + 85))
    bulkLimit := halfAt m (b + 87)
    bulkMinimum := halfAt m (b + 89) }

/-- A number within a range, both ends included. -/
def within (lo hi x : Nat) : Bool := lo ≤ x && x ≤ hi

/-- The ranges of R22 for one rail type; a setpoint limit is a multiple of 5 mV (R172). -/
def railInRange (r : RailLimits) : Bool :=
  within 0 5000 r.spMin && r.spMin % 5 == 0 && within 0 5000 r.spMax && r.spMax % 5 == 0
    && r.spMin ≤ r.spMax && within 1 65535 r.fullScale && within 1 65535 r.trip
    && within 1 65535 r.maxPower && within 1 500 r.riseMs && within 1 500 r.fallMs

/-- Every field within its range (R22), as stage 5 of R26 compares them. -/
def fieldsInRange (r : BoardRecord) : Bool :=
  r.serial.all (fun c => within 0x20 0x7E c.toNat)
    && allSockets.all (fun k => within 0 1000 (look r.heaterRating k))
    && decide (800 ≤ r.absLimit) && decide (r.absLimit ≤ 3200)
    && railInRange r.rail.core && railInRange r.rail.aux
    && within 10 10000 r.vectorPeriod && within 1 1000 r.latency && within 0 15 r.glitchWidth
    && within 1 65535 r.bulkLimit && within 0 65520 r.bulkMinimum

/-- The stages of a read of the bytes that the identity memory holds (R26, R172). Bytes beyond the end
of `m` are bytes the memory does not acknowledge. -/
def readImage (m : List Byte) : ReadOutcome :=
  if m.length < 2 then .bad .noAnswer
  else if byteAt m 1 < 96 ∨ 111 < byteAt m 1 then
    if byteAt m 0 ≠ 1 then .bad .badVersion else .bad .badField
  else if m.length < byteAt m 1 + 2 then .bad .noAnswer
  else if (crc16 (m.take (byteAt m 1))).toNat ≠ halfAt m (byteAt m 1) then .bad .badCheck
  else if byteAt m 0 ≠ 1 then .bad .badVersion
  else if fieldsInRange (parseRecord m) = false then .bad .badField
  else .good (parseRecord m)

end Sys2Proof.Machine
end

