-- ==== Sys2Proof/Machine/State.lean ====
section
/-! DEFINITION. The state of the part: every piece of state the spec gives its twelve blocks, as plain
data; times are deadlines in µs on `now` (log 2). The faults, the refusals, and the state after reset. -/

namespace Sys2Proof.Machine

/-! ### Named sets, in the order in which the defining rule lists them (R170) -/

/-- Socket states (R1). -/
inductive SocketState where
  | empty | idle | starting | stressing | stopping | held | retired | done
  deriving DecidableEq, Repr

/-- Stop destinations (R1). -/
inductive StopDest where
  | idle | held | retired | done
  deriving DecidableEq, Repr

/-- Hold reasons (R1). -/
inductive HoldReason where
  | policy | shed | safe
  deriving DecidableEq, Repr

/-- Edge selections (R2). -/
inductive EdgeSelection where
  | rise | fall | both
  deriving DecidableEq, Repr

/-- Attach states (R21). -/
inductive AttachState where
  | detached | present | attaching | attached | failed
  deriving DecidableEq, Repr

/-- Validity of a sample (R35). -/
inductive Validity where
  | valid | short | openCircuit
  deriving DecidableEq, Repr

/-- Rail states (R47). -/
inductive RailState where
  | off | waitGrant | rising | on | falling
  deriving DecidableEq, Repr

/-- Directions of a profile run (R52). -/
inductive RunDirection where
  | up | down
  deriving DecidableEq, Repr

/-- What the step in progress waits for (R52). -/
inductive StepCondition where
  | waitOff
  | waitGrant
  | rising
  | falling
  /-- with the end of the dwell time -/
  | dwell (deadline : Nat)
  | sample
  deriving DecidableEq, Repr

/-- Dispatch of a stimulus slot (R101). -/
inductive Dispatch where
  | manual | timer0 | timer1
  deriving DecidableEq, Repr

/-- Retry of a stimulus slot (R101). -/
inductive Retry where
  | none | resend
  deriving DecidableEq, Repr

/-- States of a stimulus slot (R101). -/
inductive SlotState where
  | idle | pending | active
  deriving DecidableEq, Repr

/-- Last results of a stimulus slot (R101). -/
inductive SlotResult where
  | none | delivered | failed | aborted
  deriving DecidableEq, Repr

/-- Filtered alarm levels (R118). -/
inductive AlarmLevel where
  | active | inactive
  deriving DecidableEq, Repr

/-- Policy actions (R133). -/
inductive PolicyAction where
  | count | hold | retire
  deriving DecidableEq, Repr

/-- Actions of a log entry (R141). -/
inductive LogAction where
  | none | hold | retire | late
  deriving DecidableEq, Repr

/-- Tick results (R147). -/
inductive TickResult where
  | qualified (band : Fin 8)
  | noTemp | outOfBand | rails | noActivity
  deriving DecidableEq, Repr

/-- Board modes (R155). -/
inductive Mode where
  | config | run | pause | shutdown | safe
  deriving DecidableEq, Repr

/-- SAFE causes (R155). -/
inductive SafeCause where
  | quench | oven | detach | bulkLow
  deriving DecidableEq, Repr

/-- Kinds of reset (R155, R163). -/
inductive RestartCause where
  | powerOn | line | clockLoss
  deriving DecidableEq, Repr

/-- Receive states of the Link Interface (R166). -/
inductive ReceiveState where
  | hunt | receiving | replying
  deriving DecidableEq, Repr

/-- Bit rates by the rate straps (R164). -/
inductive BitRate where
  | r115200 | r460800 | r1000000
  deriving DecidableEq, Repr

/-- Result codes (R168), in code order. -/
inductive Result where
  | ok | busy | wrongMode | range | unknownKind | length | notAttached | emptySocket | limit
  | invalid | interlock
  deriving DecidableEq, Repr

/-! ### Records -/

/-- The host parameters of a socket (R2). -/
structure HostParams where
  /-- target setpoint, 1/16 °C -/
  target : Int
  ramp : Nat
  kp : Nat
  ki : Nat
  /-- CORE and AUX setpoint, mV -/
  setpoint : PerRail Nat
  upProfile : ProfileId
  downProfile : ProfileId
  edge : EdgeSelection
  latchEnable : Bool
  reportEnable : Bool
  deriving DecidableEq, Repr

/-- A fail kind with its run time (R1, first fail and last fail). -/
structure FailStamp where
  kind : FailKind
  time : Nat
  deriving DecidableEq, Repr

/-- A socket record (R1). -/
structure SocketRecord where
  state : SocketState
  stopDest : Option StopDest
  holdReason : Option HoldReason
  holdKind : Option FailKind
  retireKind : Option FailKind
  /-- hold time remaining, s -/
  holdTime : Option Nat
  /-- the hold timer has gone from 1 to 0 and its expiry (R11) is not yet taken (log 7) -/
  expiryDue : Bool
  retries : Nat
  bin : Nat
  episode : Vector Nat 8
  cumulative : Vector Nat 8
  firstFail : Option FailStamp
  lastFail : Option FailStamp
  unlogged : Nat
  /-- stress credit, 1/256 s -/
  credit : Nat
  /-- stress target, s; 0 means no target -/
  stressTarget : Nat
  /-- last activity pass, run time in s -/
  lastPass : Option Nat
  params : HostParams
  deriving DecidableEq, Repr

/-- The overrides (R31). -/
structure Overrides where
  trip : PerRail (Option Nat)
  spMax : PerRail (Option Nat)
  spMin : PerRail (Option Nat)
  absLimit : Option Int
  bulkLimit : Option Nat
  deriving DecidableEq, Repr

/-- The host-set board-level fields (R30). -/
structure HostFields where
  inrushLimit : Nat
  runawayGuard : Nat
  runawayDwell : Nat
  stressBand : Nat
  refTemp : Int
  weightStep : Nat
  weights : Vector Nat 8
  activityAge : Nat
  holdTime : Nat
  retryLimit : Nat
  /-- dispatch timer 0 interval, ms -/
  interval0 : Nat
  /-- dispatch timer 1 interval, ms -/
  interval1 : Nat
  deriving DecidableEq, Repr

/-- The last attached board (R21). -/
structure LastBoard where
  serial : List Byte
  population : Half
  deriving DecidableEq, Repr

/-- The board table (R21). -/
structure BoardTable where
  /-- the board-derived fields, or empty -/
  fields : Option BoardRecord
  overrides : Overrides
  host : HostFields
  attach : AttachState
  failReason : Option ReadFailure
  last : Option LastBoard
  /-- the end of the 150 ms read limit while a read is in progress (R26) -/
  readDeadline : Option Nat
  deriving DecidableEq, Repr

/-- A full sample record (R35). -/
structure Sample where
  value : Option Int
  validity : Validity
  code : Nat
  round : Nat
  deriving DecidableEq, Repr

/-- The sense channels (R35). -/
inductive Channel where
  | temp (k : Socket)
  | current (k : Socket) (r : RailKind)
  | bulk
  deriving DecidableEq, Repr

/-- A round in progress (R35): its number, the next channel, and when that channel's code comes (R37). -/
structure Round where
  number : Nat
  next : Channel
  codeAt : Nat
  deriving DecidableEq, Repr

/-- The Sense Scanner (R35). -/
structure Scanner where
  nextBoundary : Nat
  counter : Nat
  round : Option Round
  temp : Tab (Option Sample)
  current : Tab (PerRail (Option Sample))
  bulk : Option Sample
  deriving DecidableEq, Repr

/-- A rail (R47) with its setpoint code (R48). -/
structure Rail where
  state : RailState
  /-- the end of RISING or FALLING -/
  deadline : Option Nat
  /-- setpoint code lines, 5 mV -/
  code : Nat
  deriving DecidableEq, Repr

/-- A profile step (R49). -/
inductive Step where
  | raise (r : RailKind)
  | drop (r : RailKind)
  | dwell (ms : Nat)
  | verify (r : RailKind) (minimum maximum : Nat)
  deriving DecidableEq, Repr

/-- A profile run (R52). -/
structure Run where
  direction : RunDirection
  profile : ProfileId
  /-- position of the step in progress, from 1 -/
  step : Nat
  cond : StepCondition
  deriving DecidableEq, Repr

/-- The control state of a socket's heater (R68). -/
structure HeatControl where
  effective : Option Int
  integrator : Nat
  invalid : Nat
  runaway : Nat
  demand : Nat
  deriving DecidableEq, Repr

/-- The Supply Allotter (R87). -/
structure Supply where
  railAllotment : Nat
  grantSum : Nat
  allowance : Option Int
  totalDraw : Nat
  curtail : Nat
  overload : Nat
  measured : Tab (PerRail Bool)
  contribution : Tab (PerRail Nat)
  applied : Tab Nat
  curtailed : Tab Bool
  deriving DecidableEq, Repr

/-- A stimulus slot record (R101). -/
structure Slot where
  pattern : Nat
  length : Nat
  mask : Half
  dispatch : Dispatch
  retry : Retry
  edgeMin : Nat
  edgeMax : Nat
  state : SlotState
  resends : Nat
  abortMark : Bool
  sent : Nat
  errors : Nat
  missed : Nat
  skipped : Nat
  last : SlotResult
  deriving DecidableEq, Repr

/-- A dispatch timer (R104). -/
inductive Timer where
  | stopped
  | running (deadline : Nat)
  | frozen (remaining : Nat)
  deriving DecidableEq, Repr

/-- The two dispatch timers (R104). -/
structure Timers where
  timer0 : Timer
  timer1 : Timer
  deriving DecidableEq, Repr

/-- The burst on the bus (R107, R109): its slot, its effective mask and its end. -/
structure Burst where
  slot : SlotId
  mask : Half
  endAt : Nat
  deriving DecidableEq, Repr

/-- A command to the pattern store (R107, R109, R116). -/
inductive StoreCommand where
  | play (pattern length : Nat)
  | stop
  deriving DecidableEq, Repr

/-- What the part sends on the two-wire line for a read: the device it addresses and the memory offset from
which it reads in order (R26). -/
structure MemoryRead where
  device : BitVec 7
  offset : Nat
  deriving DecidableEq, Repr

/-- A pending contribution (R118). -/
structure Contribution where
  slot : SlotId
  minimum : Nat
  maximum : Nat
  deriving DecidableEq, Repr

/-- An activity window (R118). -/
structure Window where
  edges : Nat
  confirmedMin : Nat
  confirmedMax : Nat
  confirmed : Nat
  waiting : Option Contribution
  closeAt : Nat
  deriving DecidableEq, Repr

/-- The Activity Monitor's state of one socket (R118). -/
structure Monitor where
  level : Option LineLevel
  window : Option Window
  alarm : Option AlarmLevel
  latch : Bool
  deriving DecidableEq, Repr

/-- A policy entry (R133). -/
structure PolicyEntry where
  action : PolicyAction
  threshold : Nat
  bin : Nat
  deriving DecidableEq, Repr

/-- A fail log entry (R141). -/
structure LogEntry where
  socket : Socket
  kind : FailKind
  direction : Option Direction
  detail : Half
  time : Nat
  action : LogAction
  repeats : Nat
  deriving DecidableEq, Repr

/-- The Link Interface (R164, R166). -/
structure Link where
  rx : ReceiveState
  buffer : List Byte
  gapDeadline : Option Nat
  tx : List Byte
  address : Nat
  rate : BitRate
  deriving DecidableEq, Repr

/-- The result and reply payload an owning block returns for a request (R167, R168). -/
structure Answer where
  result : Result
  payload : List Byte
  deriving DecidableEq, Repr

/-- The reset causes met since a reset began (R163). -/
structure ResetCauses where
  powerOn : Bool
  line : Bool
  clockLoss : Bool
  deriving DecidableEq, Repr

/-- The state of the part. -/
structure State where
  /-- µs since the end of the last reset (log 2) -/
  now : Nat
  /-- present from the start of a reset to its end (R163) -/
  resetting : Option ResetCauses
  restart : RestartCause
  mode : Mode
  safeCause : Option SafeCause
  ovenOk : Bool
  bulkLow : Nat
  sockets : Tab SocketRecord
  board : BoardTable
  scan : Scanner
  rails : Tab (PerRail Rail)
  profiles : Vector (List Step) 4
  runs : Tab (Option Run)
  /-- RFLT_N as taken: true for asserted (R64) -/
  rflt : Tab Bool
  heat : Tab HeatControl
  active : Tab Nat
  heaterOn : Tab Bool
  /-- the end of the on-time in the present carrier period (R69) -/
  heaterOff : Tab (Option Nat)
  nextCarrier : Nat
  supply : Supply
  slots : Vector Slot 8
  timers : Timers
  bus : Option Burst
  storeCommand : Option StoreCommand
  mon : Tab Monitor
  policy : Vector PolicyEntry 8
  log : List LogEntry
  runClock : Nat
  /-- present exactly while the clock status is RUNNING (R147) -/
  nextTick : Option Nat
  tickResult : Tab (Option TickResult)
  link : Link
  /-- the answer of the block that took the last request (log 20) -/
  answer : Option Answer
  /-- REG_FAULT and the OVERCURRENT of R63 that the Rail Sequencer has raised and the Fail Handler has not
  taken (R132; log 5) -/
  fails : List FailMsg
  /-- stop orders issued and not yet taken (R6; log 5) -/
  orders : List StopOrder
  /-- how many free values have been drawn (log 30) -/
  draws : Nat
  /-- the commands that are waiting, first in first out -/
  pending : List Instr
  deriving DecidableEq, Repr

/-- Why the part would stop. No event of the spec stops it. -/
inductive Fault where
  /-- raised by no command: safe -/
  | neverRaised
  deriving DecidableEq, Repr

/-- Why a command would have no meaning. -/
inductive Refusal where
  /-- a command whose meaning is not modelled; no arm of exec gives it: safe -/
  | notModelled (mnemonic : String)
  deriving DecidableEq, Repr

/-! ### After reset -/

/-- The host parameters after every reset (R2). -/
def HostParams.reset : HostParams where
  target := 2000
  ramp := 8
  kp := 40
  ki := 16
  setpoint := ⟨0, 0⟩
  upProfile := 0
  downProfile := 1
  edge := .rise
  latchEnable := true
  reportEnable := false

/-- A socket record after every reset (R1). -/
def SocketRecord.reset : SocketRecord where
  state := .empty
  stopDest := none
  holdReason := none
  holdKind := none
  retireKind := none
  holdTime := none
  expiryDue := false
  retries := 0
  bin := 0
  episode := tab8 fun _ => 0
  cumulative := tab8 fun _ => 0
  firstFail := none
  lastFail := none
  unlogged := 0
  credit := 0
  stressTarget := 0
  lastPass := none
  params := .reset

/-- No override (R21). -/
def Overrides.none : Overrides where
  trip := ⟨.none, .none⟩
  spMax := ⟨.none, .none⟩
  spMin := ⟨.none, .none⟩
  absLimit := .none
  bulkLimit := .none

/-- The defaults of R30. -/
def HostFields.reset : HostFields where
  inrushLimit := 4
  runawayGuard := 80
  runawayDwell := 40
  stressBand := 48
  refTemp := 2000
  weightStep := 80
  weights := tab8 fun _ => 256
  activityAge := 60
  holdTime := 300
  retryLimit := 2
  interval0 := 0
  interval1 := 0

/-- The board table after a reset that ends with this level of BRD_PRESENT (R21). -/
def BoardTable.reset (present : Bool) : BoardTable where
  fields := none
  overrides := .none
  host := .reset
  attach := if present then .present else .detached
  failReason := none
  last := none
  readDeadline := none

/-- The Sense Scanner after every reset (R35). -/
def Scanner.reset : Scanner where
  nextBoundary := Config.roundMicros
  counter := 0
  round := none
  temp := tab16 fun _ => none
  current := tab16 fun _ => ⟨none, none⟩
  bulk := none

/-- A rail after every reset (R47). -/
def Rail.off : Rail where
  state := .off
  deadline := none
  code := 0

/-- The profile table after every reset (R49). -/
def resetProfiles : Vector (List Step) 4 :=
  #v[[.raise .core, .raise .aux, .dwell 20],
     [.drop .aux, .drop .core],
     [.raise .aux, .raise .core, .dwell 20],
     [.drop .core, .drop .aux]]

/-- The control state after every reset (R68). -/
def HeatControl.reset : HeatControl where
  effective := none
  integrator := 0
  invalid := 0
  runaway := 0
  demand := 0

/-- The Supply Allotter after every reset (R87). -/
def Supply.reset : Supply where
  railAllotment := 0
  grantSum := 0
  allowance := none
  totalDraw := 0
  curtail := 1024
  overload := 0
  measured := tab16 fun _ => ⟨false, false⟩
  contribution := tab16 fun _ => ⟨0, 0⟩
  applied := tab16 fun _ => 0
  curtailed := tab16 fun _ => false

/-- A stimulus slot after every reset (R101). -/
def Slot.reset : Slot where
  pattern := 0
  length := 1
  mask := 0#16
  dispatch := .manual
  retry := .none
  edgeMin := 0
  edgeMax := 0
  state := .idle
  resends := 0
  abortMark := false
  sent := 0
  errors := 0
  missed := 0
  skipped := 0
  last := .none

/-- The monitor state of a socket after every reset (R118). -/
def Monitor.reset : Monitor where
  level := none
  window := none
  alarm := none
  latch := false

/-- The policy table after every reset (R133). -/
def resetPolicy : Vector PolicyEntry 8 :=
  #v[⟨.retire, 1, 2⟩, ⟨.hold, 1, 3⟩, ⟨.hold, 1, 4⟩, ⟨.hold, 1, 5⟩,
     ⟨.retire, 1, 6⟩, ⟨.hold, 1, 7⟩, ⟨.hold, 3, 8⟩, ⟨.count, 1, 9⟩]

/-- The bit rate by the rate straps (R164). -/
def BitRate.ofStraps (straps : BitVec 2) : BitRate :=
  if straps = 1#2 then .r460800 else if straps = 2#2 then .r1000000 else .r115200

/-- The Link Interface after every reset, with the straps read (R164). -/
def Link.reset (address : BitVec 6) (rate : BitVec 2) : Link where
  rx := .hunt
  buffer := []
  gapDeadline := none
  tx := []
  address := address.toNat
  rate := .ofStraps rate

/-- The part right after a reset of this kind that ends with these pin levels (R163): every block at the
value its chapter gives for "after any reset". -/
def State.afterReset (cause : RestartCause) (pins : Pins) (draws : Nat) (pending : List Instr) :
    State where
  now := 0
  resetting := none
  restart := cause
  mode := .config
  safeCause := none
  ovenOk := pins.ovenOk
  bulkLow := 0
  sockets := tab16 fun _ => .reset
  board := .reset pins.brdPresent
  scan := .reset
  rails := tab16 fun _ => ⟨.off, .off⟩
  profiles := resetProfiles
  runs := tab16 fun _ => none
  rflt := tab16 fun k => inSet pins.rflt k
  heat := tab16 fun _ => .reset
  active := tab16 fun _ => 0
  heaterOn := tab16 fun _ => false
  heaterOff := tab16 fun _ => none
  nextCarrier := Config.carrierMicros
  supply := .reset
  slots := tab8 fun _ => .reset
  timers := ⟨.stopped, .stopped⟩
  bus := none
  storeCommand := none
  mon := tab16 fun _ => .reset
  policy := resetPolicy
  log := []
  runClock := 0
  nextTick := none
  tickResult := tab16 fun _ => none
  link := .reset pins.address pins.rate
  answer := none
  fails := []
  orders := []
  draws := draws
  pending := pending

/-- The pin levels of `State.reset` (DESIGN CHOICE, log 1): a board seated, the oven interlock asserted,
address straps 1, rate straps 00, no regulator fault. -/
def resetPins : Pins where
  brdPresent := true
  ovenOk := true
  address := 1#6
  rate := 0#2
  rflt := 0#16

/-- The part right after a power-on reset (R163) with the pin levels of log 1. -/
def State.reset : State := .afterReset .powerOn resetPins 0 []

end Sys2Proof.Machine
end

