-- ==== Sys2Proof/Machine/Ops.lean ====
section
/-! DEFINITION. The named reads and updates of the state that every family uses: tables, values in force
(R21), time, messages between blocks, answers. -/

namespace Sys2Proof.Machine

/-- The outcome of a command. -/
abbrev Out := Host.Outcome State Fault Refusal

/-- From the start of a reset to its end no event but the reset's own is taken (R163; log 14). -/
def outsideReset (s : State) (f : State → State) : Out :=
  match s.resetting with
  | none => .next (f s)
  | some _ => .next s

/-- The number of a fail kind in kind-code order (R132, R170). -/
def kindIndex : FailKind → Fin 8
  | .overcurrent => 0
  | .undercurrent => 1
  | .regFault => 2
  | .overtemp => 3
  | .runaway => 4
  | .sensor => 5
  | .activity => 6
  | .dutAlarm => 7

/-- The lower of two numbers. -/
def lowerOf (a b : Nat) : Nat := if a ≤ b then a else b

/-- The higher of two numbers. -/
def higherOf (a b : Nat) : Nat := if a ≤ b then b else a

namespace State

/-! ### Tables -/

/-- The record of a socket. -/
def sock (s : State) (k : Socket) : SocketRecord := look s.sockets k

/-- Change the record of a socket. -/
def modSock (s : State) (k : Socket) (f : SocketRecord → SocketRecord) : State :=
  { s with sockets := put s.sockets k (f (look s.sockets k)) }

/-- A rail record. -/
def rail (s : State) (k : Socket) (r : RailKind) : Rail := (look s.rails k).get r

/-- The profile run of a socket. -/
def run (s : State) (k : Socket) : Option Run := look s.runs k

/-- Replace the profile run of a socket. -/
def setRun (s : State) (k : Socket) (x : Option Run) : State := { s with runs := put s.runs k x }

/-- Change the control state of a socket. -/
def modHeat (s : State) (k : Socket) (f : HeatControl → HeatControl) : State :=
  { s with heat := put s.heat k (f (look s.heat k)) }

/-- Change the monitor state of a socket. -/
def modMon (s : State) (k : Socket) (f : Monitor → Monitor) : State :=
  { s with mon := put s.mon k (f (look s.mon k)) }

/-- A stimulus slot record. -/
def slot (s : State) (i : SlotId) : Slot := look s.slots i

/-- Change a stimulus slot record. -/
def modSlot (s : State) (i : SlotId) (f : Slot → Slot) : State :=
  { s with slots := put s.slots i (f (look s.slots i)) }

/-- Set the result of a socket's test at a tick (R147). -/
def setTickResult (s : State) (k : Socket) (x : Option TickResult) : State :=
  { s with tickResult := put s.tickResult k x }

/-! ### Values in force (R21, R31) -/

/-- The board-derived fields; while they are empty no value is in force, and a reader would find a free
value (log 11). -/
def brd (s : State) : BoardRecord := s.board.fields.getD Config.absentBoard

/-- Trip current in force. -/
def trip (s : State) (r : RailKind) : Nat :=
  (s.board.overrides.trip.get r).getD (s.brd.rail.get r).trip

/-- Setpoint minimum in force. -/
def spMin (s : State) (r : RailKind) : Nat :=
  (s.board.overrides.spMin.get r).getD (s.brd.rail.get r).spMin

/-- Setpoint maximum in force. -/
def spMax (s : State) (r : RailKind) : Nat :=
  (s.board.overrides.spMax.get r).getD (s.brd.rail.get r).spMax

/-- Absolute temperature limit in force. -/
def absLimit (s : State) : Int := s.board.overrides.absLimit.getD s.brd.absLimit

/-- Bulk power limit in force. -/
def bulkLimit (s : State) : Nat := s.board.overrides.bulkLimit.getD s.brd.bulkLimit

/-- Declared maximum power in force. -/
def maxPower (s : State) (r : RailKind) : Nat := (s.brd.rail.get r).maxPower

/-- A position is populated under the mask in force (R22). -/
def populated (s : State) (k : Socket) : Bool := inSet s.brd.population k

/-- The effective setpoint of a rail: the record's setpoint clamped to the range in force (R48). -/
def effSetpoint (s : State) (k : Socket) (r : RailKind) : Nat :=
  clampNat (s.spMin r) (s.spMax r) ((s.sock k).params.setpoint.get r)

/-- The current record of a rail. -/
def currentOf (s : State) (k : Socket) (r : RailKind) : Option Sample := (look s.scan.current k).get r

/-- The rail power in 0.1 W, for a rail whose current record is full (R45). -/
def railPower (s : State) (k : Socket) (r : RailKind) : Option Nat :=
  match s.currentOf k r with
  | none => none
  | some x => some (s.effSetpoint k r * (x.value.getD 0).toNat / 10000)

/-- The latest temperature of a socket, if its TEMP record is full and VALID (R35). -/
def validTemp (s : State) (k : Socket) : Option Int :=
  match look s.scan.temp k with
  | some ⟨some t, .valid, _, _⟩ => some t
  | _ => none

/-! ### States of sockets -/

/-- STARTING or STRESSING. -/
def live (s : State) (k : Socket) : Bool :=
  match (s.sock k).state with
  | .starting | .stressing => true
  | .empty | .idle | .stopping | .held | .retired | .done => false

/-- STARTING, STRESSING or STOPPING. -/
def busy (s : State) (k : Socket) : Bool :=
  match (s.sock k).state with
  | .starting | .stressing | .stopping => true
  | .empty | .idle | .held | .retired | .done => false

/-- The rail is RISING or ON: its enable is high (R48). -/
def powered (s : State) (k : Socket) (r : RailKind) : Bool :=
  match (s.rail k r).state with
  | .rising | .on => true
  | .off | .waitGrant | .falling => false

/-! ### Time (log 2) -/

/-- The moment that lies `ms` milliseconds ahead. -/
def inMs (s : State) (ms : Nat) : Nat := s.now + 1000 * ms

/-- The milliseconds left to a moment, rounded up (R131, R171; log 17). -/
def msTo (s : State) (deadline : Nat) : Nat := ceilDiv (deadline - s.now) 1000

/-! ### Messages, answers, free values -/

/-- The Rail Sequencer hands a REG_FAULT, or an OVERCURRENT of R63, to the Fail Handler, which takes it as an
event of its own (R132, R140; log 5). -/
def raiseFail (s : State) (f : FailMsg) : State := { s with fails := s.fails ++ [f] }

/-- A block issues a stop order, which the Socket Controller takes as an event of its own (R6). -/
def issueOrder (s : State) (o : StopOrder) : State := { s with orders := s.orders ++ [o] }

/-- The owning block's result and reply payload (R167). -/
def reply (s : State) (r : Result) (payload : List Byte) : State :=
  { s with answer := some ⟨r, payload⟩ }

/-- A refusal carries the result code alone (R168). -/
def refuse (s : State) (r : Result) : State := s.reply r []

/-- A free value has been drawn. -/
def draw (s : State) : State := { s with draws := s.draws + 1 }

end State

/-- Do `f` for every socket in rising order. -/
def forSockets (f : Socket → State → State) (s : State) : State :=
  allSockets.foldl (fun t k => f k t) s

end Sys2Proof.Machine
end

