-- ==== Sys2Proof/Machine/Flags.lean ====
section
/-! DEFINITION. What the spec fixes as a function of the state: the lists and counts other rules name, and
the part's output lines (log 21). -/

namespace Sys2Proof.Machine.State

/-- The rail of a socket that stands in the inrush waiting list, CORE looked at first. -/
def waitingOf (s : State) (k : Socket) : List (Socket × RailKind) :=
  (if (s.rail k .core).state = .waitGrant then [(k, .core)] else [])
    ++ (if (s.rail k .aux).state = .waitGrant then [(k, .aux)] else [])

/-- The inrush waiting list: the rails in WAIT_GRANT in rising socket order, head first (R54). -/
def waitingList (s : State) : List (Socket × RailKind) := allSockets.flatMap s.waitingOf

/-- The number of a socket's rails in RISING. -/
def risingOf (s : State) (k : Socket) : Nat :=
  (if (s.rail k .core).state = .rising then 1 else 0)
    + (if (s.rail k .aux).state = .rising then 1 else 0)

/-- The number of rails in RISING (R55). -/
def risingCount (s : State) : Nat := allSockets.foldl (fun n k => n + s.risingOf k) 0

/-- The clock status is RUNNING (R147). -/
def clockRunning (s : State) : Bool := s.nextTick.isSome

/-- The time to the next tick in ms, present while RUNNING: from 1 to 1000 (R147). Where the tick is due and
not yet taken it is 1, the least value of that range (DESIGN CHOICE, log 36). -/
def timeToTick (s : State) : Option Nat := s.nextTick.map fun d => higherOf 1 (s.msTo d)

/-- ATTN is asserted exactly when the fail log is not empty or the mode is SAFE, outside resets (R169). -/
def attn (s : State) : Bool :=
  s.resetting.isNone && (!s.log.isEmpty || s.mode == .safe)

/-- A rail enable: high in RISING and ON, low otherwise and during a reset (R48, R163). -/
def railEnable (s : State) (k : Socket) (r : RailKind) : Bool := s.resetting.isNone && s.powered k r

/-- The setpoint code lines of a rail (R48, R163). -/
def setpointCode (s : State) (k : Socket) (r : RailKind) : Nat :=
  if s.resetting.isNone then (s.rail k r).code else 0

/-- A heater switch output (R69, R163). -/
def heaterOutput (s : State) (k : Socket) : Bool := s.resetting.isNone && look s.heaterOn k

/-- The select lines of the stimulus bus: the effective mask of the burst on it, released otherwise
(R109, R111, R163). -/
def selects (s : State) : Option Half :=
  if s.resetting.isNone then s.bus.map (·.mask) else none

/-- The command on the stimulus bus to the pattern store: the last one given (log 27), and none while the
bus is released in a reset (R107, R109, R116, R163). -/
def storeOutput (s : State) : Option StoreCommand := if s.resetting.isNone then s.storeCommand else none

/-- What stands on the two-wire line: while a read is in progress the part addresses the identity memory and
reads from the record's offset on; the line is released otherwise and during a reset (R26, R163; log 38). -/
def twoWire (s : State) : Option MemoryRead :=
  if s.resetting.isNone && s.board.attach == .attaching then
    some ⟨Config.memoryDevice, Config.memoryOffset⟩
  else none

/-- The select lines of the sense multiplexer: the channel the scanner has set it to, from the arrival before
(or the start of the round) to the arrival of the channel's code (R37). Outside a round no rule gives the
lines a setting, and none is shown (DESIGN CHOICE, log 40); so it is in a reset, which ends the round. -/
def senseSelect (s : State) : Option Channel :=
  if s.resetting.isNone then s.scan.round.map (·.next) else none

/-- The RS-485 driver is on while a reply is sent (R168; log 22). -/
def driverOn (s : State) : Bool := s.resetting.isNone && s.link.rx == .replying

end Sys2Proof.Machine.State
end

