-- ==== Sys2Proof/Machine/Operands.lean ====
section
/-! DEFINITION. The coding of payload fields (R170): what each operand byte names, and how each value is
sent. -/

namespace Sys2Proof.Machine

/-! ### Operands of requests -/

/-- A socket number; above 15 names none (R12). -/
def socketOf (b : Byte) : Option Socket := if h : b.toNat < 16 then some ⟨b.toNat, h⟩ else none

/-- A stimulus slot number; above 7 names none (R102). -/
def slotOf (b : Byte) : Option SlotId := if h : b.toNat < 8 then some ⟨b.toNat, h⟩ else none

/-- A profile number; above 3 names none (R51). -/
def profileOf (b : Byte) : Option ProfileId := if h : b.toNat < 4 then some ⟨b.toNat, h⟩ else none

/-- A weight table index; above 7 names none (R30). -/
def weightOf (b : Byte) : Option (Fin 8) := if h : b.toNat < 8 then some ⟨b.toNat, h⟩ else none

/-- A fail kind code (R132). -/
def failKindOf (b : Byte) : Option FailKind :=
  match b.toNat with
  | 0 => some .overcurrent
  | 1 => some .undercurrent
  | 2 => some .regFault
  | 3 => some .overtemp
  | 4 => some .runaway
  | 5 => some .sensor
  | 6 => some .activity
  | 7 => some .dutAlarm
  | _ => none

/-- A policy action code (R133). -/
def actionOf (b : Byte) : Option PolicyAction :=
  match b.toNat with
  | 0 => some .count
  | 1 => some .hold
  | 2 => some .retire
  | _ => none

/-- An edge selection code (R2). -/
def edgeOf (b : Byte) : Option EdgeSelection :=
  match b.toNat with
  | 0 => some .rise
  | 1 => some .fall
  | 2 => some .both
  | _ => none

/-- A dispatch code (R101). -/
def dispatchOf (b : Byte) : Option Dispatch :=
  match b.toNat with
  | 0 => some .manual
  | 1 => some .timer0
  | 2 => some .timer1
  | _ => none

/-- A retry code (R101). -/
def retryOf (b : Byte) : Option Retry :=
  match b.toNat with
  | 0 => some .none
  | 1 => some .resend
  | _ => none

/-- A rail code: CORE 0, AUX 1 (R47). -/
def railOf (b : Byte) : Option RailKind :=
  match b.toNat with
  | 0 => some .core
  | 1 => some .aux
  | _ => none

/-- A step of SetProfile, or none where check 4 of R51 refuses it. The values a kind does not use, and
the rail of a DWELL, are ignored (R51, R170). -/
def stepOf (x : RawStep) : Option Step :=
  match x.kind.toNat with
  | 0 => (railOf x.rail).map .raise
  | 1 => (railOf x.rail).map .drop
  | 2 => if x.first.toNat = 0 then none else some (.dwell x.first.toNat)
  | 3 =>
      if x.second.toNat < x.first.toNat then none
      else (railOf x.rail).map fun r => .verify r x.first.toNat x.second.toNat
  | _ => none

/-- All steps of SetProfile, or none where one of them is refused (R51). -/
def stepsOf : List RawStep → Option (List Step)
  | [] => some []
  | x :: xs =>
      match stepOf x, stepsOf xs with
      | some y, some ys => some (y :: ys)
      | _, _ => none

/-! ### Sent fields -/

/-- A one-byte field. -/
def put1 (n : Nat) : List Byte := [BitVec.ofNat 8 n]

/-- A two-byte field, least significant byte first. -/
def put2 (n : Nat) : List Byte := [BitVec.ofNat 8 n, BitVec.ofNat 8 (n / 256)]

/-- A four-byte field, least significant byte first. -/
def put4 (n : Nat) : List Byte :=
  [BitVec.ofNat 8 n, BitVec.ofNat 8 (n / 256), BitVec.ofNat 8 (n / 65536),
   BitVec.ofNat 8 (n / 16777216)]

/-- A signed two-byte field in two's complement. -/
def put2s (x : Int) : List Byte := put2 (BitVec.ofInt 16 x).toNat

/-- A signed four-byte field in two's complement. -/
def put4s (x : Int) : List Byte := put4 (BitVec.ofInt 32 x).toNat

/-- A flag: 1 for set. -/
def putFlag (b : Bool) : List Byte := put1 (if b then 1 else 0)

/-- A set of sockets. -/
def putSet (m : Half) : List Byte := put2 m.toNat

/-- A value of a named set, absent as 0xFF (R170). -/
def putNamed {α : Type} (code : α → Nat) : Option α → List Byte
  | some x => put1 (code x)
  | none => put1 0xFF

/-! ### Codes of the named sets (R170: in the order of the rule that defines the set; log 18) -/

/-- Socket states (R1). -/
def SocketState.code : SocketState → Nat
  | .empty => 0 | .idle => 1 | .starting => 2 | .stressing => 3
  | .stopping => 4 | .held => 5 | .retired => 6 | .done => 7

/-- Stop destinations (R1). -/
def StopDest.code : StopDest → Nat
  | .idle => 0 | .held => 1 | .retired => 2 | .done => 3

/-- Hold reasons (R1). -/
def HoldReason.code : HoldReason → Nat
  | .policy => 0 | .shed => 1 | .safe => 2

/-- Fail kinds (R132). -/
def kindCode (k : FailKind) : Nat := (kindIndex k).val

/-- Edge selections (R2). -/
def EdgeSelection.code : EdgeSelection → Nat
  | .rise => 0 | .fall => 1 | .both => 2

/-- Attach states (R21). -/
def AttachState.code : AttachState → Nat
  | .detached => 0 | .present => 1 | .attaching => 2 | .attached => 3 | .failed => 4

/-- Failure reasons (R21). -/
def ReadFailure.code : ReadFailure → Nat
  | .noAnswer => 0 | .badCheck => 1 | .badVersion => 2 | .badField => 3

/-- Validity (R35). -/
def Validity.code : Validity → Nat
  | .valid => 0 | .short => 1 | .openCircuit => 2

/-- Rail states (R47). -/
def RailState.code : RailState → Nat
  | .off => 0 | .waitGrant => 1 | .rising => 2 | .on => 3 | .falling => 4

/-- Run directions (R52). -/
def RunDirection.code : RunDirection → Nat
  | .up => 0 | .down => 1

/-- Step conditions (R52). -/
def StepCondition.code : StepCondition → Nat
  | .waitOff => 0 | .waitGrant => 1 | .rising => 2 | .falling => 3 | .dwell _ => 4 | .sample => 5

/-- Rails (R47). -/
def railCode : RailKind → Nat
  | .core => 0 | .aux => 1

/-- Dispatch kinds (R101). -/
def Dispatch.code : Dispatch → Nat
  | .manual => 0 | .timer0 => 1 | .timer1 => 2

/-- Retry kinds (R101). -/
def Retry.code : Retry → Nat
  | .none => 0 | .resend => 1

/-- Slot states (R101). -/
def SlotState.code : SlotState → Nat
  | .idle => 0 | .pending => 1 | .active => 2

/-- Slot results (R101). -/
def SlotResult.code : SlotResult → Nat
  | .none => 0 | .delivered => 1 | .failed => 2 | .aborted => 3

/-- Timer statuses (R104). -/
def Timer.code : Timer → Nat
  | .stopped => 0 | .running _ => 1 | .frozen _ => 2

/-- Monitor levels (R118: HIGH or LOW). -/
def levelCode : LineLevel → Nat
  | .high => 0 | .low => 1

/-- Alarm levels (R118: ACTIVE or INACTIVE). -/
def AlarmLevel.code : AlarmLevel → Nat
  | .active => 0 | .inactive => 1

/-- Policy actions (R133). -/
def PolicyAction.code : PolicyAction → Nat
  | .count => 0 | .hold => 1 | .retire => 2

/-- Directions (R132: LOW or HIGH). -/
def directionCode : Direction → Nat
  | .low => 0 | .high => 1

/-- Log actions (R141). -/
def LogAction.code : LogAction → Nat
  | .none => 0 | .hold => 1 | .retire => 2 | .late => 3

/-- Tick results (R147). -/
def TickResult.code : TickResult → Nat
  | .qualified _ => 0 | .noTemp => 1 | .outOfBand => 2 | .rails => 3 | .noActivity => 4

/-- Board modes (R155). -/
def Mode.code : Mode → Nat
  | .config => 0 | .run => 1 | .pause => 2 | .shutdown => 3 | .safe => 4

/-- SAFE causes (R155). -/
def SafeCause.code : SafeCause → Nat
  | .quench => 0 | .oven => 1 | .detach => 2 | .bulkLow => 3

/-- Restart causes (R155). -/
def RestartCause.code : RestartCause → Nat
  | .powerOn => 0 | .line => 1 | .clockLoss => 2

/-- Bit-rate codes (R170, kind 0x01). -/
def BitRate.code : BitRate → Nat
  | .r115200 => 0 | .r460800 => 1 | .r1000000 => 2

/-- Result codes (R168). -/
def Result.code : Result → Nat
  | .ok => 0x00 | .busy => 0x01 | .wrongMode => 0x02 | .range => 0x03 | .unknownKind => 0x04
  | .length => 0x05 | .notAttached => 0x06 | .emptySocket => 0x07 | .limit => 0x08
  | .invalid => 0x09 | .interlock => 0x0A

end Sys2Proof.Machine
end

