-- ==== Sys2Proof/Machine/Activity.lean ====
section
/-! DEFINITION. The Activity Monitor (08): filtered levels, activity windows and their judgment, alarm
latches, and the commands MONITOR_EDGE, SET_ALARM_ENABLES, READ_ALARMS. The close of a window and an alarm
edge, which raise fails, stand in Machine/Raised.lean. -/

namespace Sys2Proof.Machine

/-! ### Windows -/

/-- The window of a socket. -/
def windowOf (k : Socket) (s : State) : Option Window := (look s.mon k).window

/-- Replace the window of a socket. -/
def setWindow (k : Socket) (w : Option Window) (s : State) : State :=
  s.modMon k fun m => { m with window := w }

/-- The window is discarded without judgment (R125). -/
def discardWindow (k : Socket) (s : State) : State := setWindow k none s

/-- A window notice for one socket of the effective mask: a window is opened (R121) or extended
(R122). -/
def noticeWindow (c : Contribution) (closeAt : Nat) (k : Socket) (s : State) : State :=
  match windowOf k s with
  | none =>
      setWindow k (some
        { edges := 0, confirmedMin := 0, confirmedMax := 0, confirmed := 0
          waiting := some c, closeAt := closeAt }) s
  | some w => setWindow k (some { w with waiting := some c, closeAt := closeAt }) s

/-- The contribution of a burst that ended OK is confirmed for one socket (R123). -/
def confirmWindow (k : Socket) (s : State) : State :=
  match windowOf k s with
  | some w =>
      match w.waiting with
      | some c =>
          setWindow k (some
            { w with
              confirmedMin := satAdd 65535 w.confirmedMin c.minimum
              confirmedMax := satAdd 65535 w.confirmedMax c.maximum
              confirmed := satAdd 65535 w.confirmed 1
              waiting := none }) s
      | none => s
  | none => s

/-- The contribution of a burst that ended in ERROR is withdrawn for one socket (R124). -/
def withdrawWindow (k : Socket) (s : State) : State :=
  match windowOf k s with
  | some w =>
      if w.confirmed = 0 then discardWindow k s
      else setWindow k (some { w with waiting := none }) s
  | none => s

/-- Do `f` for every socket of a set, in rising order. -/
def forSet (m : Half) (f : Socket → State → State) (s : State) : State :=
  forSockets (fun k t => if inSet m k then f k t else t) s

/-- The judgment of a window (R126). -/
inductive Judgment where
  | pass
  | fail (d : Direction)
  deriving DecidableEq, Repr

/-- The edge count against the confirmed minimum and maximum (R126). -/
def judge (w : Window) : Judgment :=
  if w.edges < w.confirmedMin then .fail .low
  else if w.confirmedMax < w.edges then .fail .high
  else .pass

/-! ### Lines -/

/-- The position's lines are watched: ATTACHED, and populated under the mask in force (R119). -/
def watched (k : Socket) (s : State) : Bool := s.board.attach == .attached && s.populated k

/-- The edge selection counts an edge to this level (R120). -/
def counts (e : EdgeSelection) (level : LineLevel) : Bool :=
  match e, level with
  | .rise, .high | .fall, .low | .both, .high | .both, .low => true
  | .rise, .low | .fall, .high => false

/-- A new filtered monitor level is taken; an edge that counts increases the count of an open window
(R120). A level taken where none was held is no change of level (log 13). -/
def takeMonitor (k : Socket) (level : LineLevel) (s : State) : State :=
  if watched k s = true ∧ (look s.mon k).level ≠ some level then
    s.modMon k fun m =>
      { m with
        level := some level
        window :=
          if m.level.isSome ∧ counts (s.sock k).params.edge level = true then
            m.window.map fun w => { w with edges := satAdd 65535 w.edges 1 }
          else m.window }
  else s

/-- MONITOR_EDGE (R120). -/
def execMonitorEdge (k : Socket) (level : LineLevel) (s : State) : Out :=
  outsideReset s (takeMonitor k level)

/-- The alarm level a line level means under the board's alarm active level (R128). -/
def alarmLevel (k : Socket) (level : LineLevel) (s : State) : AlarmLevel :=
  if inSet s.brd.alarmHigh k = (level == .high) then .active else .inactive

/-- The levels at the installation of a board, which are no edges (R119): `mon` and `alm` are the sets of
sockets whose lines are HIGH. At a new board every latch is cleared. -/
def installLevels (newBoard : Bool) (mon alm : Half) (s : State) : State :=
  let levelIn (m : Half) (k : Socket) : LineLevel := if inSet m k then .high else .low
  { s with mon := tab16 fun k =>
      let m := look s.mon k
      { m with
        level := if s.populated k then some (levelIn mon k) else none
        alarm := if s.populated k then some (alarmLevel k (levelIn alm k) s) else none
        latch := if newBoard then false else m.latch } }

/-- The attach state leaves ATTACHED: every filtered level becomes absent (R119). -/
def dropLevels (s : State) : State :=
  { s with mon := tab16 fun k => { look s.mon k with level := none, alarm := none } }

/-! ### Requests -/

/-- SetAlarmEnables (R129). -/
def setAlarmEnables (latch report : Half) (s : State) : State :=
  if s.board.attach = .attaching then s.refuse .busy
  else
    let set : State :=
      { s with sockets := tab16 fun k =>
          let r := look s.sockets k
          { r with params :=
              { r.params with latchEnable := inSet latch k, reportEnable := inSet report k } } }
    set.reply .ok
      (putSet (setOf fun k => (set.sock k).params.latchEnable)
        ++ putSet (setOf fun k => (set.sock k).params.reportEnable))

/-- SET_ALARM_ENABLES (R129). -/
def execSetAlarmEnables (latch report : Half) (s : State) : Out :=
  outsideReset s (setAlarmEnables latch report)

/-- ReadAlarms: the reply shows the latches before the clearing (R130). -/
def readAlarms (clearSet : Half) (s : State) : State :=
  let told := s.reply .ok
    (putSet (setOf fun k => (look s.mon k).latch)
      ++ putSet (setOf fun k => (look s.mon k).alarm == some .active)
      ++ putSet (setOf fun k => (look s.mon k).alarm.isSome))
  { told with mon := tab16 fun k =>
      let m := look s.mon k
      { m with latch := m.latch && !inSet clearSet k } }

/-- READ_ALARMS (R130). -/
def execReadAlarms (clearSet : Half) (s : State) : Out := outsideReset s (readAlarms clearSet)

end Sys2Proof.Machine
end

