-- ==== Sys2Proof/Machine/Heater.lean ====
section
/-! DEFINITION. The Heater Controller (05): the ten stages on each temperature sample, the duties, the PWM,
and the commands CARRIER_PERIOD_START and HEATER_ON_TIME_END. What a sample raises stands in
Machine/Raised.lean. -/

namespace Sys2Proof.Machine

/-! ### Duties -/

/-- Applied and active duty become 0 at once, and the output goes off (R69, R71). -/
def cutHeat (k : Socket) (s : State) : State :=
  { s with
    supply := { s.supply with applied := put s.supply.applied k 0 }
    active := put s.active k 0
    heaterOn := put s.heaterOn k false
    heaterOff := put s.heaterOff k none }

/-- A zeroing event of R71: demand, applied duty and active duty become 0. -/
def zeroHeat (k : Socket) (s : State) : State :=
  (cutHeat k s).modHeat k fun c => { c with demand := 0 }

/-- The SAFE entry sets the applied and active duties of all sockets to 0 (R71). -/
def cutAllHeat (s : State) : State :=
  { s with
    supply := { s.supply with applied := tab16 fun _ => 0 }
    active := tab16 fun _ => 0
    heaterOn := tab16 fun _ => false
    heaterOff := tab16 fun _ => none }

/-! ### The stages (R73 to R80) -/

/-- What the stages read (R72). -/
structure HeatInputs where
  target : Int
  ramp : Nat
  kp : Nat
  ki : Nat
  guard : Nat
  dwell : Nat
  deriving DecidableEq, Repr

/-- Stage 3, ramp (R75). -/
def rampStage (target : Int) (ramp : Nat) (e : Int) : Int :=
  if ramp = 0 then target
  else if (target - e).natAbs ≤ ramp then target
  else if e < target then e + ramp
  else e - ramp

/-- Stage 4, error (R76). -/
def errorStage (e t : Int) : Int := clampInt (-1600) 1600 (e - t)

/-- Stage 5, proportional term: truncation (R76). -/
def proportional (kp : Nat) (error : Int) : Int := Int.tdiv (kp * error) 16

/-- Stage 6, candidate integrator (R77). -/
def candidate (integrator ki : Nat) (error : Int) : Nat :=
  (clampInt 0 256000 (integrator + ki * error)).toNat

/-- The output for an integrator value (R77, R78). -/
def outputOf (p : Int) (integrator : Nat) : Int := p + (integrator / 256 : Nat)

/-- Stage 8 refuses the candidate integrator (R78). -/
def refuses (output error : Int) : Bool :=
  decide (1000 < output ∧ 0 < error) || decide (output < 0 ∧ error < 0)

/-- Stages 6 to 9: the integrator and the demand (R77, R78, R79). -/
def controlStage (integrator kp ki : Nat) (error : Int) : Nat × Nat :=
  let p := proportional kp error
  let c := candidate integrator ki error
  let i := if refuses (outputOf p c) error then integrator else c
  (i, (clampInt 0 1000 (outputOf p i)).toNat)

/-- Stage 10: the runaway condition (R80). -/
def runawayHolds (e t : Int) (guard demand : Nat) : Bool :=
  decide (e + guard ≤ t) && demand == 0

/-- Stages 3 to 10 on the control state: its new value, and whether RUNAWAY is raised. An effective
setpoint absent in a running socket counts as the target, as at an entry without a valid sample (R82;
log 28). -/
def heatStages (x : HeatInputs) (t : Int) (c : HeatControl) : HeatControl × Bool :=
  let e := rampStage x.target x.ramp (c.effective.getD x.target)
  let out := controlStage c.integrator x.kp x.ki (errorStage e t)
  let count := if runawayHolds e t x.guard out.2 then c.runaway + 1 else 0
  let fails := decide (x.dwell ≤ count) && decide (0 < count)
  ({ c with
     effective := some e
     integrator := out.1
     runaway := if fails then 0 else count
     demand := out.2 }, fails)

/-- What the stages read for a socket at an arrival (R72). -/
def heatInputs (k : Socket) (s : State) : HeatInputs where
  target := (s.sock k).params.target
  ramp := (s.sock k).params.ramp
  kp := (s.sock k).params.kp
  ki := (s.sock k).params.ki
  guard := s.board.host.runawayGuard
  dwell := s.board.host.runawayDwell

/-- The control state at a socket's entry to STARTING (R82). -/
def startHeat (k : Socket) (s : State) : State :=
  s.modHeat k fun _ =>
    { effective := some ((s.validTemp k).getD (s.sock k).params.target)
      integrator := 0
      invalid := 0
      runaway := 0
      demand := 0 }

/-! ### The PWM -/

/-- The end of the on-time of a period that starts now; none where the output does not change within the
period (R69). -/
def onTimeEnd (now duty : Nat) : Option Nat :=
  if duty = 0 ∨ 1000 ≤ duty then none else some (now + duty * 10)

/-- A carrier period starts: every active duty takes the applied duty (R69). -/
def startPeriod (s : State) : State :=
  { s with
    active := s.supply.applied
    heaterOn := tab16 fun k => decide (0 < look s.supply.applied k)
    heaterOff := tab16 fun k => onTimeEnd s.now (look s.supply.applied k)
    nextCarrier := s.now + Config.carrierMicros }

/-- CARRIER_PERIOD_START (R69). -/
def execCarrierPeriodStart (s : State) : Out := outsideReset s startPeriod

/-- A socket's on-time runs out: its output goes off until the next period start (R69). -/
def endOnTime (k : Socket) (s : State) : State :=
  match look s.heaterOff k with
  | some _ =>
      { s with
        heaterOn := put s.heaterOn k false
        heaterOff := put s.heaterOff k none }
  | none => s

/-- HEATER_ON_TIME_END (R69). -/
def execHeaterOnTimeEnd (k : Socket) (s : State) : Out := outsideReset s (endOnTime k)

end Sys2Proof.Machine
end

