-- ==== Sys2Proof/Machine/Rails.lean ====
section
/-! DEFINITION. The Rail Sequencer (04): rails, profiles and their runs, inrush grants, rail faults, and
the commands SET_PROFILE, GET_PROFILE, RISE_END, FALL_END, DWELL_END, RFLT_N_LEVEL. -/

namespace Sys2Proof.Machine

/-! ### Rails -/

/-- Put a rail record in place without reporting a change of state (R65 uses it). -/
def writeRail (k : Socket) (r : RailKind) (x : Rail) (s : State) : State :=
  { s with rails := put s.rails k ((look s.rails k).set r x) }

/-- Set or clear the measured mark of a rail (R88). -/
def setMark (k : Socket) (r : RailKind) (m : Bool) (s : State) : State :=
  { s with supply := { s.supply with
      measured := put s.supply.measured k ((look s.supply.measured k).set r m) } }

/-- A rail enters a state; the report of the change clears the rail's measured mark (R47, R88). -/
def enterRail (k : Socket) (r : RailKind) (x : Rail) (s : State) : State :=
  setMark k r false (writeRail k r x s)

/-- The detail of REG_FAULT: 1 for CORE, 2 for AUX, 3 for both RISING or ON (R64). -/
def regFaultDetail (k : Socket) (s : State) : Half :=
  BitVec.ofNat 16 ((if s.powered k .core then 1 else 0) + (if s.powered k .aux then 2 else 0))

/-- The condition of REG_FAULT: the line is asserted and a rail of the socket is RISING or ON (R64). -/
def regFaultHolds (k : Socket) (s : State) : Bool :=
  look s.rflt k && (s.powered k .core || s.powered k .aux)

/-- Raise REG_FAULT when the condition, which stood at `before`, is now true (R64). -/
def regFaultCheck (k : Socket) (before : Bool) (s : State) : State :=
  if before = false ∧ regFaultHolds k s = true then
    s.raiseFail ⟨k, .regFault, regFaultDetail k s, none⟩
  else s

/-- Set what the step in progress waits for (R52). -/
def setCond (k : Socket) (c : StepCondition) (s : State) : State :=
  match s.run k with
  | some x => s.setRun k (some { x with cond := c })
  | none => s

/-- A granted rail enters RISING, with its setpoint code and its rise time (R56); the grant counts in
the grant sum (R90) and the waiting RAISE step shows RISING (R53). -/
def grantRail (k : Socket) (r : RailKind) (s : State) : State :=
  let before := regFaultHolds k s
  let up := enterRail k r
    ⟨.rising, some (s.inMs (s.brd.rail.get r).riseMs), s.effSetpoint k r / 5⟩ s
  let counted : State :=
    { up with supply := { up.supply with grantSum := up.supply.grantSum + s.maxPower r } }
  regFaultCheck k before (setCond k .rising counted)

/-- Admission of a rail at the head of the list (R90). -/
def admitted (r : RailKind) (s : State) : Bool :=
  decide (s.supply.railAllotment + s.supply.grantSum + s.maxPower r ≤ s.bulkLimit)

/-- A grant decision over the entries of the list, head first: it ends at the first entry that fails
either condition (R55). -/
def grantAll : List (Socket × RailKind) → State → State
  | [], s => s
  | (k, r) :: rest, s =>
      if s.risingCount < s.board.host.inrushLimit ∧ admitted r s = true then
        grantAll rest (grantRail k r s)
      else s

/-- A grant decision (R55). -/
def grantDecision (s : State) : State := grantAll s.waitingList s

/-- A rail enters WAIT_GRANT and joins the inrush waiting list; a grant decision follows (R53, R54). -/
def joinList (k : Socket) (r : RailKind) (s : State) : State :=
  grantDecision (setCond k .waitGrant (enterRail k r ⟨.waitGrant, none, 0⟩ s))

/-- Drop a rail as a DROP step does, without the grant decision (R57). -/
def dropRail (k : Socket) (r : RailKind) (s : State) : State :=
  match (s.rail k r).state with
  | .on | .rising =>
      enterRail k r ⟨.falling, some (s.inMs (s.brd.rail.get r).fallMs), 0⟩ s
  | .waitGrant => enterRail k r .off s
  | .falling | .off => s

/-- Drop both rails of a socket (R62). -/
def dropBoth (k : Socket) (s : State) : State := dropRail k .aux (dropRail k .core s)

/-- Both rails of a socket are OFF. -/
def bothOff (k : Socket) (s : State) : Bool :=
  (s.rail k .core).state == .off && (s.rail k .aux).state == .off

/-! ### Profiles -/

/-- The steps of a profile leave `r` up: it holds a RAISE of `r` and no DROP of `r` after the last one
(R50). -/
def leavesUp (r : RailKind) (steps : List Step) : Bool :=
  steps.foldl (fun up x => if x = .raise r then true else if x = .drop r then false else up) false

/-- Every VERIFY of the remaining steps names a rail that is up, in the walk of R50. -/
def verifiesUp : Bool → Bool → List Step → Bool
  | _, _, [] => true
  | core, aux, x :: xs =>
      match x with
      | .raise .core => verifiesUp true aux xs
      | .raise .aux => verifiesUp core true xs
      | .drop .core => verifiesUp false aux xs
      | .drop .aux => verifiesUp core false xs
      | .dwell _ => verifiesUp core aux xs
      | .verify .core _ _ => core && verifiesUp core aux xs
      | .verify .aux _ _ => aux && verifiesUp core aux xs

/-- A profile is valid as an up-profile (R50). -/
def upValid (steps : List Step) : Bool :=
  leavesUp .core steps && leavesUp .aux steps && verifiesUp false false steps

/-- A step is a RAISE. -/
def isRaise : Step → Bool
  | .raise _ => true
  | .drop _ | .dwell _ | .verify _ _ _ => false

/-- A profile is valid as a down-profile: it holds no RAISE (R50). -/
def downValid (steps : List Step) : Bool := steps.all fun x => !isRaise x

/-! ### Running a profile -/

/-- The last step of a run has completed: an UP run ends (R60); a DOWN run drops what is not OFF, and
ends when both rails are OFF (R62). The completion of a run that has ended is taken by
UP_PROFILE_COMPLETE or DOWN_PROFILE_COMPLETE (log 6). -/
def finishRun (k : Socket) (s : State) : State :=
  match s.run k with
  | none => s
  | some x =>
      match x.direction with
      | .up => s.setRun k none
      | .down =>
          let wasRising := decide (s.risingOf k ≠ 0)
          let dropped := dropBoth k s
          let ended :=
            if bothOff k dropped = true then dropped.setRun k none else setCond k .falling dropped
          if wasRising then grantDecision ended else ended

/-- Set the position of the step in progress and what it waits for (R52). -/
def setStep (k : Socket) (i : Nat) (c : StepCondition) (s : State) : State :=
  match s.run k with
  | some x => s.setRun k (some { x with step := i, cond := c })
  | none => s

/-- Begin the step at position `i`, the head of the remaining steps; a step that completes at once is
followed by the next (R52, R53, R57, R58, R59). -/
def runSteps : List Step → Nat → Socket → State → State
  | [], _, k, s => finishRun k s
  | x :: rest, i, k, s =>
      match x with
      | .raise r =>
          match (s.rail k r).state with
          | .off => joinList k r (setStep k i .waitGrant s)
          | .on => runSteps rest (i + 1) k (setStep k i .rising s)
          | .falling => setStep k i .waitOff s
          | .waitGrant => setStep k i .waitGrant s
          | .rising => setStep k i .rising s
      | .drop r =>
          match (s.rail k r).state with
          | .on => dropRail k r (setStep k i .falling s)
          | .rising => grantDecision (dropRail k r (setStep k i .falling s))
          | .falling => setStep k i .falling s
          | .waitGrant => runSteps rest (i + 1) k (dropRail k r (setStep k i .falling s))
          | .off => runSteps rest (i + 1) k (setStep k i .falling s)
      | .dwell ms => setStep k i (.dwell (s.inMs ms)) s
      | .verify _ _ _ => setStep k i .sample s

/-- A profile run starts at its first step (R52). -/
def startRun (k : Socket) (d : RunDirection) (p : ProfileId) (s : State) : State :=
  runSteps (look s.profiles p) 1 k (s.setRun k (some ⟨d, p, 1, .sample⟩))

/-- The steps of a run from the step in progress on. -/
def stepsLeft (x : Run) (s : State) : List Step := (look s.profiles x.profile).drop (x.step - 1)

/-- The step in progress of a socket's run. -/
def stepNow (k : Socket) (s : State) : Option Step :=
  match s.run k with
  | some x => (stepsLeft x s).head?
  | none => none

/-- The step in progress has completed: the run moves to the next step, which begins at once (R52). -/
def nextStep (k : Socket) (s : State) : State :=
  match s.run k with
  | some x => runSteps ((stepsLeft x s).drop 1) (x.step + 1) k s
  | none => s

/-- A rail of an UP run that is abandoned: one that waits or rises is dropped, the others stand (R61). -/
def abandonRail (k : Socket) (r : RailKind) (s : State) : State :=
  match (s.rail k r).state with
  | .waitGrant | .rising => dropRail k r s
  | .off | .on | .falling => s

/-- The abandonment of an UP run (R61). -/
def abandonUp (k : Socket) (s : State) : State :=
  match s.run k with
  | none => s
  | some _ =>
      let touched := decide (s.risingOf k ≠ 0) || !(s.waitingOf k).isEmpty
      let ended := (abandonRail k .aux (abandonRail k .core s)).setRun k none
      if touched then grantDecision ended else ended

/-- A socket that was STARTING has its UP run abandoned; then the down-profile starts (R7, R61). -/
def stopRun (k : Socket) (s : State) : State :=
  let halted := if (s.sock k).state = .starting then abandonUp k s else s
  startRun k .down (halted.sock k).params.downProfile halted

/-- The SAFE cut (R66): every rail OFF, no run. -/
def safeCut (s : State) : State :=
  { s with rails := tab16 fun _ => ⟨.off, .off⟩, runs := tab16 fun _ => none }

/-! ### Current samples -/

/-- The trip comparison of a current sample (R63). -/
def tripCheck (k : Socket) (r : RailKind) (current : Nat) (s : State) : State :=
  if s.powered k r = true ∧ s.trip r < current then
    s.raiseFail ⟨k, .overcurrent, BitVec.ofNat 16 current, none⟩
  else s

/-- The fail of a VERIFY judgment, other than the trip's (R59). -/
def verifyFail (state : RailState) (trip lo hi current : Nat) : Option FailKind :=
  match state with
  | .on =>
      if trip < current then none
      else if hi < current then some .overcurrent
      else if current < lo then some .undercurrent
      else none
  | .off | .waitGrant | .rising | .falling => some .undercurrent

/-- The minimum and maximum of the VERIFY step that waits for a sample of this rail, if there is one
(R59). -/
def verifyBounds (k : Socket) (r : RailKind) (s : State) : Option (Nat × Nat) :=
  match s.run k, stepNow k s with
  | some x, some (.verify q lo hi) => if x.cond = .sample ∧ q = r then some (lo, hi) else none
  | _, _ => none

/-- The fail with which a waiting VERIFY step judges a sample of this rail, if any (R59). -/
def verdict (k : Socket) (r : RailKind) (current : Nat) (s : State) : Option FailMsg :=
  (verifyBounds k r s).bind fun b =>
    (verifyFail (s.rail k r).state (s.trip r) b.1 b.2 current).map fun f =>
      ⟨k, f, BitVec.ofNat 16 current, none⟩

/-- A VERIFY step that waits for a sample of this rail completes at the judgment (R59). -/
def passVerify (k : Socket) (r : RailKind) (s : State) : State :=
  if (verifyBounds k r s).isSome then nextStep k s else s

/-- A current arrival at the Rail Sequencer (R39, R59, R63); the fail of a VERIFY judgment is `verdict`. -/
def sequencerSample (k : Socket) (r : RailKind) (current : Nat) (s : State) : State :=
  passVerify k r (tripCheck k r current s)

/-! ### Ends of rises, falls and dwells -/

/-- A RISING rail reaches ON: the waiting RAISE step completes and the run goes on; the released grant is
followed by a grant decision (R56; log 8). -/
def endRise (k : Socket) (r : RailKind) (s : State) : State :=
  if (s.rail k r).state = .rising then
    let up := enterRail k r ⟨.on, none, (s.rail k r).code⟩ s
    let gone :=
      match up.run k with
      | some x =>
          if x.cond = .rising ∧ stepNow k up = some (.raise r) then nextStep k up else up
      | none => up
    grantDecision gone
  else s

/-- What a fallen rail lets go on: a DROP step that waited for it, the check at the end of a DOWN run, or
a RAISE step that waited for OFF (R53, R57, R62). -/
def afterFall (k : Socket) (r : RailKind) (s : State) : State :=
  match s.run k with
  | none => s
  | some x =>
      match x.cond, stepNow k s with
      | .falling, some (.drop q) =>
          if (s.rail k q).state = .off then nextStep k s else s
      | .falling, _ => finishRun k s
      | .waitOff, some (.raise q) => if q = r then joinList k r s else s
      | _, _ => s

/-- A FALLING rail's time runs out: it enters OFF (R57). -/
def endFall (k : Socket) (r : RailKind) (s : State) : State :=
  if (s.rail k r).state = .falling then afterFall k r (enterRail k r .off s) else s

/-- A DWELL step's time runs out: the step completes (R58). -/
def endDwell (k : Socket) (s : State) : State :=
  match s.run k with
  | some ⟨_, _, _, .dwell _⟩ => nextStep k s
  | _ => s

/-- RISE_END (R56). -/
def execRiseEnd (k : Socket) (r : RailKind) (s : State) : Out := outsideReset s (endRise k r)

/-- FALL_END (R57). -/
def execFallEnd (k : Socket) (r : RailKind) (s : State) : Out := outsideReset s (endFall k r)

/-- DWELL_END (R58). -/
def execDwellEnd (k : Socket) (s : State) : Out := outsideReset s (endDwell k)

/-- A new level of RFLT_N is taken; REG_FAULT is raised when its condition becomes true (R64). -/
def takeRflt (k : Socket) (asserted : Bool) (s : State) : State :=
  regFaultCheck k (regFaultHolds k s) { s with rflt := put s.rflt k asserted }

/-- RFLT_N_LEVEL (R64). -/
def execRfltNLevel (k : Socket) (asserted : Bool) (s : State) : Out :=
  outsideReset s (takeRflt k asserted)

/-! ### SetProfile and GetProfile -/

/-- The six bytes of a profile step (R170): values a kind does not use are 0. -/
def putStep : Step → List Byte
  | .raise r => put1 0 ++ put1 (railCode r) ++ put2 0 ++ put2 0
  | .drop r => put1 1 ++ put1 (railCode r) ++ put2 0 ++ put2 0
  | .dwell ms => put1 2 ++ put1 0 ++ put2 ms ++ put2 0
  | .verify r lo hi => put1 3 ++ put1 (railCode r) ++ put2 lo ++ put2 hi

/-- The reply of SetProfile and GetProfile (R51, R170). -/
def profileReply (p : ProfileId) (s : State) : State :=
  let steps := look s.profiles p
  s.reply .ok (put1 p.val ++ put1 steps.length ++ steps.flatMap putStep
    ++ putFlag (upValid steps) ++ putFlag (downValid steps))

/-- SetProfile's checks and effect (R51). -/
def setProfile (profile : Byte) (steps : List RawStep) (s : State) : State :=
  if s.mode ≠ .config then s.refuse .wrongMode
  else
    match profileOf profile with
    | none => s.refuse .range
    | some p =>
        if steps.length = 0 ∨ 8 < steps.length then s.refuse .range
        else
          match stepsOf steps with
          | none => s.refuse .range
          | some xs => profileReply p { s with profiles := put s.profiles p xs }

/-- SET_PROFILE (R51). -/
def execSetProfile (profile : Byte) (steps : List RawStep) (s : State) : Out :=
  outsideReset s (setProfile profile steps)

/-- GetProfile (R51). -/
def getProfile (profile : Byte) (s : State) : State :=
  match profileOf profile with
  | none => s.refuse .range
  | some p => profileReply p s

/-- GET_PROFILE (R51). -/
def execGetProfile (profile : Byte) (s : State) : Out := outsideReset s (getProfile profile)

end Sys2Proof.Machine
end

