-- ==== Sys2Proof/Machine/Sockets.lean ====
section
/-! DEFINITION. The Socket Controller (01): entry to STARTING, stop orders, destinations, hold expiries,
and the socket requests. -/

namespace Sys2Proof.Machine

/-! ### Entries -/

/-- The record at an entry to STARTING (R4). -/
def startRecord (r : SocketRecord) : SocketRecord :=
  { r with
    state := .starting
    stopDest := none
    holdReason := none
    holdTime := none
    expiryDue := false
    lastPass := none
    episode := tab8 fun _ => 0 }

/-- A socket enters STARTING (R4): its record, its tick result (R147), its control state (R82) and its
up-profile (R52). -/
def enterStarting (k : Socket) (s : State) : State :=
  let recorded := startHeat k ((s.modSock k startRecord).setTickResult k none)
  startRun k .up (s.sock k).params.upProfile recorded

/-- The policy bin of a kind (R133). -/
def policyBin (f : FailKind) (s : State) : Nat := (look s.policy (kindIndex f)).bin

/-- The record at an entry to a stop destination (R9). -/
def destRecord (bin : Nat) (hold : Nat) (d : StopDest) (r : SocketRecord) : SocketRecord :=
  match d with
  | .idle => { r with state := .idle, stopDest := none, holdReason := none, holdTime := none, bin := 0 }
  | .done => { r with state := .done, stopDest := none, holdReason := none, holdTime := none, bin := 1 }
  | .retired =>
      { r with state := .retired, stopDest := none, holdReason := none, holdTime := none, bin := bin }
  | .held =>
      { r with state := .held, stopDest := none, holdTime := some hold, expiryDue := false, bin := 0 }

/-- The bin of the retire kind in the policy table in force (R9). A socket with destination RETIRED has a
retire kind; without one its bin would stand. -/
def retireBin (k : Socket) (s : State) : Nat :=
  match (s.sock k).retireKind with
  | some f => policyBin f s
  | none => (s.sock k).bin

/-- The stop destination of a STOPPING socket, which R7 always sets; an absent one counts as IDLE
(log 13). -/
def destOf (r : SocketRecord) : StopDest := r.stopDest.getD .idle

/-- A STOPPING socket enters its stop destination (R9). -/
def enterDest (k : Socket) (s : State) : State :=
  s.modSock k (destRecord (retireBin k s) s.board.host.holdTime (destOf (s.sock k)))

/-! ### Stop orders -/

/-- The record of a running socket that a stop order puts in STOPPING (R7). -/
def stopRecord (d : OrderDest) (r : SocketRecord) : SocketRecord :=
  match d with
  | .toIdle => { r with state := .stopping, stopDest := some .idle }
  | .toDone => { r with state := .stopping, stopDest := some .done }
  | .toPolicyHold f =>
      { r with
        state := .stopping, stopDest := some .held, holdReason := some .policy, holdKind := some f }
  | .toShedHold => { r with state := .stopping, stopDest := some .held, holdReason := some .shed }
  | .toRetired f => { r with state := .stopping, stopDest := some .retired, retireKind := some f }

/-- The record of a STOPPING socket that takes a further stop order (R8). -/
def restopRecord (d : OrderDest) (r : SocketRecord) : SocketRecord :=
  match d with
  | .toRetired f =>
      if r.stopDest = some .retired then r
      else { r with stopDest := some .retired, holdReason := none, retireKind := some f }
  | .toIdle | .toDone | .toPolicyHold _ | .toShedHold => r

/-- A running socket is stopped (R7): its run is abandoned and the down-profile starts (R61), its demand
and duties go to 0 (R71), its window is discarded (R125), its record changes. -/
def stopSocketBy (k : Socket) (d : OrderDest) (s : State) : State :=
  (discardWindow k (zeroHeat k (stopRun k s))).modSock k (stopRecord d)

/-- The Socket Controller takes a stop order (R7, R8). -/
def takeOrder (o : StopOrder) (s : State) : State :=
  match (s.sock o.socket).state with
  | .starting | .stressing => stopSocketBy o.socket o.dest s
  | .stopping => s.modSock o.socket (restopRecord o.dest)
  | .empty | .idle | .held | .retired | .done => s

/-- STOP_ORDER: an order in flight is taken off the list of orders (log 5). -/
def takeStopOrder (o : StopOrder) (s : State) : State :=
  takeOrder o { s with orders := s.orders.erase o }

/-- STOP_ORDER (R7). -/
def execStopOrder (o : StopOrder) (s : State) : Out := outsideReset s (takeStopOrder o)

/-! ### Completions -/

/-- The up-profile of a STARTING socket has completed: its run has ended and it enters STRESSING
(R5, R60; log 6). -/
def completeUp (k : Socket) (s : State) : State :=
  if (s.sock k).state = .starting ∧ s.run k = none then
    s.modSock k fun r => { r with state := .stressing }
  else s

/-- UP_PROFILE_COMPLETE (R5). -/
def execUpProfileComplete (k : Socket) (s : State) : Out := outsideReset s (completeUp k)

/-- No socket is STARTING, STRESSING or STOPPING. -/
def noneBusy (s : State) : Bool := allSockets.all fun k => !s.busy k

/-- The dispatch timers stop and lose their time (R104). -/
def stopTimers (s : State) : State := { s with timers := ⟨.stopped, .stopped⟩ }

/-- In SHUTDOWN the board returns to CONFIG as soon as no socket runs (R158); the run clock is held
(R148). -/
def endShutdown (s : State) : State :=
  if s.mode = .shutdown ∧ noneBusy s = true then
    stopTimers { s with mode := .config, nextTick := none }
  else s

/-- The down-profile of a STOPPING socket has completed with both rails OFF: it enters its stop
destination (R9, R62; log 6). -/
def completeDown (k : Socket) (s : State) : State :=
  if (s.sock k).state = .stopping ∧ s.run k = none ∧ bothOff k s = true then
    endShutdown (enterDest k s)
  else s

/-- DOWN_PROFILE_COMPLETE (R9). -/
def execDownProfileComplete (k : Socket) (s : State) : Out := outsideReset s (completeDown k)

/-! ### Hold expiry -/

/-- A retry is left: retries used is below the retry limit in force (R11, R15). -/
def retryLeft (k : Socket) (s : State) : Bool :=
  decide ((s.sock k).retries < s.board.host.retryLimit)

/-- A retry is used and the socket enters STARTING (R11, R15). -/
def useRetry (k : Socket) (s : State) : State :=
  enterStarting k (s.modSock k fun r => { r with retries := r.retries + 1 })

/-- A HELD socket without retries enters RETIRED (R11); its bin is the policy bin of its hold kind. -/
def retireHeld (k : Socket) (s : State) : State :=
  s.modSock k fun r =>
    { r with
      state := .retired
      retireKind := r.holdKind
      bin := match r.holdKind with
        | some f => policyBin f s
        | none => r.bin
      holdReason := none
      holdTime := none
      expiryDue := false }

/-- The socket's hold timer can expire: it runs, or its expiry is due. A timer loaded as 0 has no expiry
(R10). -/
def canExpire (r : SocketRecord) : Bool :=
  r.expiryDue || (match r.holdTime with
    | some n => decide (0 < n)
    | none => false)

/-- The modes in which an expiry is taken: no socket enters STARTING in CONFIG, SHUTDOWN or SAFE
(R52, R66, R158; log 7). -/
def expiryMode (m : Mode) : Bool :=
  match m with
  | .run | .pause => true
  | .config | .shutdown | .safe => false

/-- The expiry of a hold timer, by hold reason (R11). -/
def expireHold (k : Socket) (s : State) : State :=
  if (s.sock k).state = .held ∧ canExpire (s.sock k) = true ∧ expiryMode s.mode = true then
    match (s.sock k).holdReason with
    | some .shed => enterStarting k s
    | some .policy => if retryLeft k s then useRetry k s else retireHeld k s
    | some .safe | none => s
  else s

/-- HOLD_EXPIRY (R11). -/
def execHoldExpiry (k : Socket) (s : State) : Out := outsideReset s (expireHold k)

/-! ### Requests -/

/-- Checks 1 to 4 of R12 for a socket request other than GetSocket; `accepted` tells whether the request
is accepted in the board mode. -/
def socketRequest (n : Byte) (accepted : Bool) (body : Socket → State → State) (s : State) : State :=
  match socketOf n with
  | none => s.refuse .range
  | some k =>
      if s.board.attach = .attaching then s.refuse .busy
      else if s.board.attach ≠ .attached then s.refuse .notAttached
      else if (s.sock k).state = .empty then s.refuse .emptySocket
      else if accepted = false then s.refuse .wrongMode
      else body k s

/-- A reply that carries the socket's state as it stands (R12). -/
def replySocket (k : Socket) (r : Result) (s : State) : State :=
  s.reply r (put1 (s.sock k).state.code)

/-- StartSocket on a socket (R13). -/
def startSocketBody (k : Socket) (s : State) : State :=
  if (s.sock k).state = .idle then replySocket k .ok (enterStarting k s)
  else replySocket k .invalid s

/-- StartSocket (R13). -/
def startSocket (n : Byte) (s : State) : State :=
  socketRequest n (s.mode == .run) startSocketBody s

/-- START_SOCKET (R13). -/
def execStartSocket (n : Byte) (s : State) : Out := outsideReset s (startSocket n)

/-- StopSocket on a socket (R14). -/
def stopSocketBody (k : Socket) (s : State) : State :=
  match (s.sock k).state with
  | .starting | .stressing | .stopping => replySocket k .ok (takeOrder ⟨k, .toIdle⟩ s)
  | .held =>
      replySocket k .ok (s.modSock k fun r =>
        { r with state := .idle, holdReason := none, holdTime := none, expiryDue := false })
  | .idle => replySocket k .ok s
  | .empty | .retired | .done => replySocket k .invalid s

/-- StopSocket (R14). -/
def stopSocket (n : Byte) (s : State) : State :=
  socketRequest n (s.mode == .run || s.mode == .pause) stopSocketBody s

/-- STOP_SOCKET (R14). -/
def execStopSocket (n : Byte) (s : State) : Out := outsideReset s (stopSocket n)

/-- RetrySocket on a socket (R15). Start has taken every HELD(SAFE) socket out of HELD in RUN, so hold
reason SAFE is not met (R15's note); it is handled as a state the request does not take (log 13). -/
def retrySocketBody (k : Socket) (s : State) : State :=
  if (s.sock k).state = .held then
    match (s.sock k).holdReason with
    | some .policy =>
        if retryLeft k s then replySocket k .ok (useRetry k s) else replySocket k .limit s
    | some .shed => replySocket k .ok (enterStarting k s)
    | some .safe | none => replySocket k .invalid s
  else replySocket k .invalid s

/-- RetrySocket (R15). -/
def retrySocket (n : Byte) (s : State) : State :=
  socketRequest n (s.mode == .run) retrySocketBody s

/-- RETRY_SOCKET (R15). -/
def execRetrySocket (n : Byte) (s : State) : Out := outsideReset s (retrySocket n)

/-- The record that ClearSocket leaves (R16): host parameters and stress target are kept. -/
def clearRecord (r : SocketRecord) : SocketRecord :=
  { SocketRecord.reset with state := .idle, stressTarget := r.stressTarget, params := r.params }

/-- ClearSocket on a socket (R16): a socket that is not EMPTY is IDLE, HELD, RETIRED or DONE in CONFIG; a
running one would be left as it stands (log 13). -/
def clearSocketBody (k : Socket) (s : State) : State :=
  if s.busy k then replySocket k .ok s
  else replySocket k .ok ((s.modSock k clearRecord).setTickResult k none)

/-- ClearSocket (R16). -/
def clearSocket (n : Byte) (s : State) : State :=
  socketRequest n (s.mode == .config) clearSocketBody s

/-- CLEAR_SOCKET (R16). -/
def execClearSocket (n : Byte) (s : State) : Out := outsideReset s (clearSocket n)

/-! ### SetSocketParams -/

/-- A setpoint as written: rounded down to a multiple of 5 mV, then clamped to the range in force (R17). -/
def adjustSetpoint (r : RailKind) (mV : Nat) (s : State) : Nat :=
  clampNat (s.spMin r) (s.spMax r) (floorFive mV)

/-- A value above 255 saturates to 255 (R17). -/
def saturateByte (n : Nat) : Nat := if 255 < n then 255 else n

/-- The host parameters as written, after the adjustments of R17. -/
def writtenParams (v : ParamValues) (up down : ProfileId) (e : EdgeSelection) (s : State)
    (p : HostParams) : HostParams :=
  { p with
    target := clampInt (-640) s.absLimit v.target.toInt
    ramp := saturateByte v.ramp.toNat
    kp := saturateByte v.kp.toNat
    ki := saturateByte v.ki.toNat
    setpoint := ⟨adjustSetpoint .core v.core.toNat s, adjustSetpoint .aux v.aux.toNat s⟩
    upProfile := up
    downProfile := down
    edge := e }

/-- A written setpoint goes to the code lines of a RISING or ON rail at once (R65). -/
def applySetpoint (k : Socket) (r : RailKind) (s : State) : State :=
  if s.powered k r then writeRail k r { s.rail k r with code := s.effSetpoint k r / 5 } s else s

/-- The reply of SetSocketParams: the socket's state, then the ten values as written (R170; log 16). -/
def paramsReply (k : Socket) (s : State) : State :=
  let r := s.sock k
  let p := r.params
  s.reply .ok (put1 r.state.code ++ put2s p.target ++ put2 p.ramp ++ put2 p.kp ++ put2 p.ki
    ++ put2 p.setpoint.core ++ put2 p.setpoint.aux ++ put1 p.upProfile.val ++ put1 p.downProfile.val
    ++ put1 p.edge.code ++ put4 r.stressTarget)

/-- SetSocketParams on a socket (R17). -/
def setParamsBody (v : ParamValues) (k : Socket) (s : State) : State :=
  match profileOf v.upProfile, profileOf v.downProfile, edgeOf v.edge with
  | some up, some down, some e =>
      if Config.targetCeiling < v.stressTarget.toNat then s.refuse .range
      else
        let written := s.modSock k fun r =>
          { r with
            stressTarget := v.stressTarget.toNat
            params := writtenParams v up down e s r.params }
        paramsReply k (applySetpoint k .aux (applySetpoint k .core written))
  | _, _, _ => s.refuse .range

/-- SetSocketParams: accepted in every board mode (R17). -/
def setSocketParams (n : Byte) (v : ParamValues) (s : State) : State :=
  socketRequest n true (setParamsBody v) s

/-- SET_SOCKET_PARAMS (R17). -/
def execSetSocketParams (n : Byte) (v : ParamValues) (s : State) : Out :=
  outsideReset s (setSocketParams n v)

/-! ### SAFE -/

/-- The record of a socket that the SAFE entry finds running (R19). -/
def safeRecord (bin hold : Nat) (r : SocketRecord) : SocketRecord :=
  match r.state with
  | .starting | .stressing =>
      { r with state := .held, stopDest := none, holdReason := some .safe, holdTime := none }
  | .stopping => destRecord bin hold (destOf r) r
  | .empty | .idle | .held | .retired | .done => r

/-- The Socket Controller resolves every socket at SAFE entry (R19): records; the demand of a running
socket goes to 0 and its window is discarded (R71, R125). -/
def resolveSafe (s : State) : State :=
  { s with
    sockets := tab16 fun k => safeRecord (retireBin k s) s.board.host.holdTime (look s.sockets k)
    heat := tab16 fun k =>
      if s.live k then { look s.heat k with demand := 0 } else look s.heat k
    mon := tab16 fun k =>
      if s.live k then { look s.mon k with window := none } else look s.mon k }

end Sys2Proof.Machine
end

