-- ==== Sys2Proof/Machine/Burst.lean ====
section
/-! DEFINITION. The Burst Engine (07): stimulus slots, dispatch timers, the bus arbiter, bursts, and the
commands SET_SLOT, GET_SLOT, SEND_SLOT, ABORT_SLOT, SET_TIMERS, DISPATCH_TIMER_EXPIRY, BURST_END. -/

namespace Sys2Proof.Machine

/-! ### Starting a burst -/

/-- The effective mask: the sockets of the slot's mask that are STRESSING (R109). -/
def effectiveMask (i : SlotId) (s : State) : Half :=
  setOf fun k => inSet (s.slot i).mask k && (s.sock k).state == .stressing

/-- The burst duration in µs: ceiling(length × vector period / 1000) (R110). -/
def burstMicros (length period : Nat) : Nat := ceilDiv (length * period) 1000

/-- A start with an empty effective mask is skipped (R109). -/
def skipRecord (x : Slot) : Slot :=
  { x with
    skipped := satAdd 65535 x.skipped 1
    state := .idle
    last := if 0 < x.resends then .failed else x.last }

/-- The arbiter starts a PENDING slot (R109). -/
def startSlot (i : SlotId) (s : State) : State :=
  let mask := effectiveMask i s
  if mask = 0#16 then s.modSlot i skipRecord
  else
    let x := s.slot i
    let endAt := s.now + burstMicros x.length s.brd.vectorPeriod
    let playing := s.modSlot i fun y =>
      { y with state := .active, sent := satAdd 65535 y.sent 1 }
    let onBus : State :=
      { playing with
        bus := some ⟨i, mask, endAt⟩
        storeCommand := some (.play x.pattern x.length) }
    forSet mask (noticeWindow ⟨i, x.edgeMin, x.edgeMax⟩ (endAt + 1000 * s.brd.latency)) onBus

/-- A decision over slots in rising order: it starts the PENDING ones until a burst is on the bus
(R108). -/
def arbitrate : List SlotId → State → State
  | [], s => s
  | i :: rest, s =>
      if s.bus = none ∧ (s.slot i).state = .pending then arbitrate rest (startSlot i s)
      else arbitrate rest s

/-- The bus arbiter makes a decision (R108). -/
def arbiterDecision (s : State) : State := if s.mode = .run then arbitrate allSlots s else s

/-! ### Dispatch -/

/-- A dispatch: resends used 0, abort mark clear, PENDING (R103, R106). -/
def dispatchRecord (x : Slot) : Slot := { x with resends := 0, abortMark := false, state := .pending }

/-- The dispatch kind that names a timer. -/
def timerDispatch : TimerId → Dispatch
  | .timer0 => .timer0
  | .timer1 => .timer1

/-- A timer's expiry at one slot record (R106). -/
def expirySlot (t : TimerId) (x : Slot) : Slot :=
  if x.dispatch = timerDispatch t then
    match x.state with
    | .idle => dispatchRecord x
    | .pending | .active => { x with missed := satAdd 65535 x.missed 1 }
  else x

/-- The interval of a timer, a host-set field (R30). -/
def intervalOf (t : TimerId) (s : State) : Nat :=
  match t with
  | .timer0 => s.board.host.interval0
  | .timer1 => s.board.host.interval1

/-- A dispatch timer. -/
def timerOf (t : TimerId) (s : State) : Timer :=
  match t with
  | .timer0 => s.timers.timer0
  | .timer1 => s.timers.timer1

/-- Replace a dispatch timer. -/
def setTimer (t : TimerId) (x : Timer) (s : State) : State :=
  match t with
  | .timer0 => { s with timers := { s.timers with timer0 := x } }
  | .timer1 => { s with timers := { s.timers with timer1 := x } }

/-- A timer is loaded with the interval in force; interval 0 leaves it STOPPED (R104). -/
def loadTimer (t : TimerId) (s : State) : State :=
  setTimer t
    (if 0 < intervalOf t s then .running (s.inMs (intervalOf t s)) else .stopped) s

/-- A RUNNING timer expires: its slots, its reload, the arbiter's decision (R106). -/
def expireTimer (t : TimerId) (s : State) : State :=
  match timerOf t s with
  | .running _ =>
      arbiterDecision (loadTimer t { s with slots := tab8 fun i => expirySlot t (look s.slots i) })
  | .stopped | .frozen _ => s

/-- DISPATCH_TIMER_EXPIRY (R106). -/
def execDispatchTimerExpiry (t : TimerId) (s : State) : Out := outsideReset s (expireTimer t)

/-- Pause freezes a RUNNING timer (R104). -/
def freeze (now : Nat) : Timer → Timer
  | .running d => .frozen (d - now)
  | .frozen r => .frozen r
  | .stopped => .stopped

/-- Resume lets a FROZEN timer run on (R104). -/
def thaw (now : Nat) : Timer → Timer
  | .frozen r => .running (now + r)
  | .running d => .running d
  | .stopped => .stopped

/-- A timer has no time left. -/
def timeOut (now : Nat) : Timer → Bool
  | .running d => decide (d ≤ now)
  | .frozen _ | .stopped => false

/-! ### The end of a burst -/

/-- The slot is resent after an ERROR (R112). -/
def resends (x : Slot) (m : Mode) : Bool :=
  x.retry == .resend && decide (x.resends < 3) && !x.abortMark && (m == .run || m == .pause)

/-- The slot record after an ERROR: resent or closed (R112). -/
def errorRecord (m : Mode) (x : Slot) : Slot :=
  let counted := { x with errors := satAdd 65535 x.errors 1 }
  if resends x m then { counted with resends := x.resends + 1, state := .pending }
  else { counted with last := .failed, state := .idle }

/-- The delivery of the burst on the bus is judged: OK confirms its contributions and closes the slot
(R111), ERROR withdraws them and resends or closes the slot (R112). -/
def judgeBurst (dlvChk : Bool) (b : Burst) (s : State) : State :=
  if dlvChk then
    (forSet b.mask confirmWindow s).modSlot b.slot fun x => { x with last := .delivered, state := .idle }
  else (forSet b.mask withdrawWindow s).modSlot b.slot (errorRecord s.mode)

/-- The bus becomes free and the select lines are released (R111, R112). -/
def freeBus (s : State) : State := { s with bus := none }

/-- The burst on the bus ends; then the bus is free and the arbiter decides (R111, R112). An end that comes
before the burst's time is taken as well (DESIGN CHOICE, log 37). -/
def endBurst (dlvChk : Bool) (s : State) : State :=
  match s.bus with
  | none => s
  | some b => arbiterDecision (freeBus (judgeBurst dlvChk b s))

/-- BURST_END (R111, R112). -/
def execBurstEnd (dlvChk : Bool) (s : State) : Out := outsideReset s (endBurst dlvChk)

/-! ### Modes -/

/-- A PENDING slot is closed as ABORTED (R115, R116). -/
def abortPending (x : Slot) : Slot :=
  match x.state with
  | .pending => { x with state := .idle, last := .aborted }
  | .idle | .active => x

/-- Shutdown closes every PENDING slot and stops the timers (R104, R115). -/
def shutdownBursts (s : State) : State :=
  stopTimers { s with slots := tab8 fun i => abortPending (look s.slots i) }

/-- The slot that is ACTIVE or PENDING is closed as ABORTED (R116). -/
def abortAny (x : Slot) : Slot :=
  match x.state with
  | .pending | .active => { x with state := .idle, last := .aborted }
  | .idle => x

/-- The SAFE entry stops the bus and closes every dispatch (R116). -/
def stopBus (s : State) : State :=
  stopTimers
    { s with
      slots := tab8 fun i => abortAny (look s.slots i)
      bus := none
      storeCommand := match s.bus with
        | some _ => some .stop
        | none => s.storeCommand }

/-! ### Requests -/

/-- The 24 bytes of a slot record (R170). -/
def slotBytes (i : SlotId) (x : Slot) : List Byte :=
  put1 i.val ++ put1 x.pattern ++ put2 x.length ++ putSet x.mask ++ put1 x.dispatch.code
    ++ put1 x.retry.code ++ put2 x.edgeMin ++ put2 x.edgeMax ++ put1 x.state.code
    ++ put1 x.resends ++ putFlag x.abortMark ++ put2 x.sent ++ put2 x.errors ++ put2 x.missed
    ++ put2 x.skipped ++ put1 x.last.code

/-- The modes in which check 4 of R102 is made. -/
def edgesChecked (m : Mode) : Bool :=
  match m with
  | .run | .pause | .shutdown => true
  | .config | .safe => false

/-- The record that SetSlot leaves (R102). -/
def writtenSlot (v : SlotValues) (d : Dispatch) (r : Retry) : Slot :=
  { Slot.reset with
    pattern := v.pattern.toNat
    length := v.length.toNat
    mask := v.mask
    dispatch := d
    retry := r
    edgeMin := v.edgeMin.toNat
    edgeMax := v.edgeMax.toNat }

/-- SetSlot's checks and effect (R102). -/
def setSlot (n : Byte) (v : SlotValues) (s : State) : State :=
  match slotOf n with
  | none => s.refuse .range
  | some i =>
      if (s.slot i).state ≠ .idle then s.refuse .busy
      else if 63 < v.pattern.toNat ∨ v.length.toNat = 0 then s.refuse .range
      else
        match dispatchOf v.dispatch, retryOf v.retry with
        | some d, some r =>
            if edgesChecked s.mode = true ∧ v.edgeMax.toNat < v.edgeMin.toNat then s.refuse .range
            else
              let written := s.modSlot i fun _ => writtenSlot v d r
              written.reply .ok (slotBytes i (written.slot i))
        | _, _ => s.refuse .range

/-- SET_SLOT (R102). -/
def execSetSlot (n : Byte) (v : SlotValues) (s : State) : Out := outsideReset s (setSlot n v)

/-- GetSlot (R117). -/
def getSlot (n : Byte) (s : State) : State :=
  match slotOf n with
  | none => s.refuse .range
  | some i => s.reply .ok (slotBytes i (s.slot i))

/-- GET_SLOT (R117). -/
def execGetSlot (n : Byte) (s : State) : Out := outsideReset s (getSlot n)

/-- SendSlot: the reply gives the state PENDING; the arbiter then decides (R103). -/
def sendSlot (n : Byte) (s : State) : State :=
  match slotOf n with
  | none => s.refuse .range
  | some i =>
      if s.mode ≠ .run then s.refuse .wrongMode
      else if (s.slot i).state ≠ .idle then s.refuse .busy
      else
        arbiterDecision ((s.modSlot i dispatchRecord).reply .ok (put1 SlotState.pending.code))

/-- SEND_SLOT (R103). -/
def execSendSlot (n : Byte) (s : State) : Out := outsideReset s (sendSlot n)

/-- AbortSlot at one slot record (R114). -/
def abortRecord (x : Slot) : Slot :=
  match x.state with
  | .idle => x
  | .pending => { x with state := .idle, last := .aborted, abortMark := true }
  | .active => { x with abortMark := true }

/-- AbortSlot (R114). -/
def abortSlot (n : Byte) (s : State) : State :=
  match slotOf n with
  | none => s.refuse .range
  | some i =>
      let marked := s.modSlot i abortRecord
      marked.reply .ok
        (put1 (marked.slot i).state.code ++ putFlag (marked.slot i).abortMark)

/-- ABORT_SLOT (R114). -/
def execAbortSlot (n : Byte) (s : State) : Out := outsideReset s (abortSlot n)

/-- An interval SetTimers accepts: 0, or 50 to 600,000 ms (R105). -/
def intervalOk (n : Nat) : Bool := n == 0 || (decide (50 ≤ n) && decide (n ≤ 600000))

/-- The time remaining of a timer in µs, absent while STOPPED (R104). -/
def timerLeft (now : Nat) : Timer → Option Nat
  | .running d => some (d - now)
  | .frozen r => some r
  | .stopped => none

/-- A timer's interval, status and time remaining in ms (R170, R171; log 12, 17). -/
def putTimer (t : TimerId) (s : State) : List Byte :=
  put4 (intervalOf t s) ++ put1 (timerOf t s).code
    ++ put4 (match timerLeft s.now (timerOf t s) with
      | some left => ceilDiv left 1000
      | none => Config.absentNumber (.timerTime (t == .timer1)) s.draws)

/-- SetTimers (R105). -/
def setTimers (interval0 interval1 : Word) (s : State) : State :=
  if intervalOk interval0.toNat = true ∧ intervalOk interval1.toNat = true then
    let written : State :=
      { s with board := { s.board with host :=
          { s.board.host with interval0 := interval0.toNat, interval1 := interval1.toNat } } }
    (written.reply .ok (putTimer .timer0 written ++ putTimer .timer1 written)).draw
  else s.refuse .range

/-- SET_TIMERS (R105). -/
def execSetTimers (interval0 interval1 : Word) (s : State) : Out :=
  outsideReset s (setTimers interval0 interval1)

end Sys2Proof.Machine
end

