-- ==== Sys2Proof/Machine/Credit.lean ====
section
/-! DEFINITION. The Credit Counter (10): the run clock, the test of each socket at a tick, accrual, the
target, and the command TICK. -/

namespace Sys2Proof.Machine

/-- The band index of a temperature (R151): floor division. -/
def bandIndex (t refTemp : Int) (step : Nat) : Fin 8 :=
  Fin.ofNat 8 (clampInt 0 7 (Int.fdiv (t - refTemp) step + 4)).toNat

/-- Condition 4 of R150. -/
def activityRecent (age time : Nat) (lastPass : Option Nat) : Bool :=
  age == 0 || (match lastPass with
    | some p => decide (time ≤ p + age)
    | none => false)

/-- The test of a STRESSING socket at a tick with this run time (R150). -/
def testSocket (time : Nat) (k : Socket) (s : State) : TickResult :=
  match s.validTemp k with
  | none => .noTemp
  | some t =>
      if s.board.host.stressBand < (t - (s.sock k).params.target).natAbs then .outOfBand
      else if ¬((s.rail k .core).state = .on ∧ (s.rail k .aux).state = .on) then .rails
      else if activityRecent s.board.host.activityAge time (s.sock k).lastPass = false then .noActivity
      else .qualified (bandIndex t s.board.host.refTemp s.board.host.weightStep)

/-- The credit after a qualifying second (R152). -/
def accrue (weight credit : Nat) : Nat := satAdd Config.creditCeiling credit weight

/-- The credit has reached the target (R153). -/
def targetReached (r : SocketRecord) : Bool :=
  decide (0 < r.stressTarget) && decide (r.stressTarget * 256 ≤ r.credit)

/-- A socket at a tick in RUN, tested when it is STRESSING (R149, R152, R153). -/
def creditTick (time : Nat) (k : Socket) (s : State) : State :=
  if (s.sock k).state = .stressing then
    let result := testSocket time k s
    let told := s.setTickResult k (some result)
    match result with
    | .qualified band =>
        let paid := told.modSock k fun r =>
          { r with credit := accrue (look s.board.host.weights band) r.credit }
        if targetReached (paid.sock k) then paid.issueOrder ⟨k, .toDone⟩ else paid
    | .noTemp | .outOfBand | .rails | .noActivity => told
  else s

/-- The hold timer of a socket record at a tick in RUN (R10). -/
def lowerHold (r : SocketRecord) : SocketRecord :=
  match r.state, r.holdReason, r.holdTime with
  | .held, some .policy, some (n + 1) | .held, some .shed, some (n + 1) =>
      { r with holdTime := some n, expiryDue := r.expiryDue || n == 0 }
  | _, _, _ => r

/-- The Socket Controller takes a tick in RUN (R10). -/
def lowerHolds (s : State) : State :=
  { s with sockets := tab16 fun k => lowerHold (look s.sockets k) }

/-- A tick is made while the clock status is RUNNING: the run clock advances; in RUN the hold timers are
lowered and the sockets are tested (R148). -/
def takeTick (s : State) : State :=
  match s.nextTick with
  | none => s
  | some _ =>
      let time := if s.runClock < Config.clockCeiling then s.runClock + 1 else s.runClock
      let ticked : State :=
        { s with runClock := time, nextTick := some (s.now + Config.tickMicros) }
      if s.mode = .run then forSockets (creditTick time) (lowerHolds ticked) else ticked

/-- TICK (R148). -/
def execTick (s : State) : Out := outsideReset s takeTick

end Sys2Proof.Machine
end

