-- ==== Sys2Proof/Machine/Supply.lean ====
section
/-! DEFINITION. The Supply Allotter (06): counting the rails, sharing the rest among the heaters, the
overload check and shedding, all at a round end. -/

namespace Sys2Proof.Machine

/-! ### Counting the rails (R89) -/

/-- What a rail adds to the rail allotment (R89). -/
def contributionOf (s : State) (k : Socket) (r : RailKind) : Nat :=
  match (s.rail k r).state with
  | .off | .waitGrant => 0
  | .rising => s.maxPower r
  | .on | .falling =>
      if (look s.supply.measured k).get r then (s.railPower k r).getD 0 else s.maxPower r

/-- A sum over the sockets. -/
def sumSockets (f : Socket → Nat) : Nat := allSockets.foldl (fun n k => n + f k) 0

/-- The rail allotment: the sum over all 32 rails (R89). -/
def railTotal (s : State) : Nat :=
  sumSockets fun k => contributionOf s k .core + contributionOf s k .aux

/-! ### Sharing among the heaters (R91 to R93) -/

/-- A socket counts: STARTING or STRESSING with a full and VALID TEMP record (R91). -/
def countedHeat (s : State) (k : Socket) : Bool := s.live k && (s.validTemp k).isSome

/-- The demand of a socket, 0 for one that does not count. -/
def demandOf (s : State) (k : Socket) : Nat :=
  if countedHeat s k then (look s.heat k).demand else 0

/-- The heater rating in force. -/
def ratingOf (s : State) (k : Socket) : Nat := look s.brd.heaterRating k

/-- The draw of a heater at a duty: floor(rating × duty / 1000) (R91, R93). -/
def drawAt (s : State) (k : Socket) (duty : Nat) : Nat := ratingOf s k * duty / 1000

/-- The total heater draw (R91). -/
def totalDraw (s : State) : Nat := sumSockets fun k => drawAt s k (demandOf s k)

/-- The duty of a counted socket for a factor: floor(demand × f / 1024) (R93). -/
def dutyAt (s : State) (f : Nat) (k : Socket) : Nat := demandOf s k * f / 1024

/-- The sum of the applied draws for a factor (R93). -/
def appliedDraw (s : State) (f : Nat) : Nat := sumSockets fun k => drawAt s k (dutyAt s f k)

/-- The largest factor from 0 to `f` whose applied draws are at most the allowance (R93). -/
def largestFactor (s : State) (allowance : Nat) : Nat → Nat
  | 0 => 0
  | f + 1 => if appliedDraw s (f + 1) ≤ allowance then f + 1 else largestFactor s allowance f

/-- The curtail factor: R92's two cases, or R93's search from f0 = floor(allowance × 1024 / total). -/
def curtailFactor (s : State) (allowance : Int) : Nat :=
  if allowance ≤ 0 then 0
  else if (totalDraw s : Int) ≤ allowance then 1024
  else largestFactor s allowance.toNat (allowance.toNat * 1024 / totalDraw s)

/-- The allotment of a round end (R89, R91 to R94). -/
def allot (s : State) : State :=
  let rails := railTotal s
  let allowance : Int := (s.bulkLimit : Int) - rails
  let f := curtailFactor s allowance
  let curtails := decide (allowance ≤ 0) || decide (allowance < totalDraw s)
  { s with supply :=
    { s.supply with
      railAllotment := rails
      grantSum := 0
      allowance := some allowance
      totalDraw := totalDraw s
      curtail := f
      contribution := tab16 fun k => ⟨contributionOf s k .core, contributionOf s k .aux⟩
      applied := tab16 fun k => dutyAt s f k
      curtailed := tab16 fun k => curtails && decide (0 < demandOf s k) } }

/-! ### Overload (R95, R96) -/

/-- A socket's sum of contributions at the round end. -/
def socketShare (s : State) (k : Socket) : Nat :=
  (look s.supply.contribution k).core + (look s.supply.contribution k).aux

/-- The STRESSING socket whose rails contributed the most, the lowest index among equals (R96). -/
def shedChoice (s : State) : Option Socket :=
  allSockets.foldl (fun best k =>
    if (s.sock k).state = .stressing then
      match best with
      | none => some k
      | some b => if socketShare s b < socketShare s k then some k else best
    else best) none

/-- The overload check: the new counter, and the socket to shed (R95). -/
def overloadCheck (s : State) : Nat × Option Socket :=
  if s.supply.railAllotment ≤ s.bulkLimit then (0, none)
  else if s.supply.overload = 0 then (1, none)
  else (0, shedChoice s)

/-- A round end at the Supply Allotter (R94): the allotment, the grant decision and the overload check.
The decision's grants and the check's stop order may be taken in either order: a free value tells which
(log 10). -/
def roundEnd (s : State) : State :=
  let a := allot s
  let check := overloadCheck a
  let counted : State := { a with supply := { a.supply with overload := check.1 } }
  match check.2 with
  | none => grantDecision counted
  | some k =>
      if Config.coin counted.draws then grantDecision (takeOrder ⟨k, .toShedHold⟩ counted.draw)
      else (grantDecision counted.draw).issueOrder ⟨k, .toShedHold⟩

/-- The account's reset on leaving ATTACHED and on SAFE entry (R98). -/
def resetSupply (s : State) : State := { s with supply := .reset }

end Sys2Proof.Machine
end

