-- ==== Sys2Proof/Machine/Modes.lean ====
section
/-! DEFINITION. The Mode Controller (11): the mode requests, SAFE, the oven interlock, the resets, and the
commands START, PAUSE, RESUME, SHUTDOWN, QUENCH, CLEAR, OVEN_OK_LEVEL, POWER_ON_RESET, RESET_N_ASSERTED,
CLOCK_LOSS, RESET_END. -/

namespace Sys2Proof.Machine

/-! ### SAFE -/

/-- Entry to SAFE from any mode but SAFE: every block acts at once (R159). -/
def enterSafe (c : SafeCause) (s : State) : State :=
  if s.mode = .safe then s
  else
    resolveSafe (stopBus (resetSupply (cutAllHeat (safeCut
      { s with mode := .safe, safeCause := some c, nextTick := none }))))

/-- A request that is never answered (R167). -/
def unanswered (s : State) : State := { s with answer := none }

/-- The reply that gives the board mode (R170). -/
def replyMode (s : State) : State := s.reply .ok (put1 s.mode.code)

/-- The answer to a mode request: none when it was broadcast (R157, R159). -/
def answerMode (broadcast : Bool) (s : State) : State :=
  if broadcast then unanswered s else replyMode s

/-- A mode request in a mode that does not take it: refused when addressed, ignored when broadcast
(R157). -/
def refuseMode (broadcast : Bool) (s : State) : State :=
  if broadcast then unanswered s else s.refuse .wrongMode

/-- Quench enters SAFE with cause QUENCH; in SAFE it is answered OK and changes nothing (R159). -/
def quench (broadcast : Bool) (s : State) : State := answerMode broadcast (enterSafe .quench s)

/-- QUENCH (R159). -/
def execQuench (broadcast : Bool) (s : State) : Out := outsideReset s (quench broadcast)

/-- A new OVEN_OK level is taken; DEASSERTED enters SAFE (R160). -/
def takeOven (asserted : Bool) (s : State) : State :=
  if asserted = s.ovenOk then s
  else
    let taken : State := { s with ovenOk := asserted }
    if asserted then taken else enterSafe .oven taken

/-- OVEN_OK_LEVEL (R160). -/
def execOvenOkLevel (asserted : Bool) (s : State) : Out := outsideReset s (takeOven asserted)

/-- Clear leaves SAFE for CONFIG while OVEN_OK is asserted (R162). -/
def clear (s : State) : State :=
  if s.mode ≠ .safe then s.refuse .wrongMode
  else if s.ovenOk = false then s.refuse .interlock
  else replyMode (stopTimers { s with mode := .config, safeCause := none, nextTick := none })

/-- CLEAR (R162). -/
def execClear (s : State) : Out := outsideReset s clear

/-! ### Start -/

/-- The items of Start's checks, in check order (R156). -/
inductive StartItem where
  | attachState | ovenOk | upProfile | downProfile | target | slotEdges
  deriving DecidableEq, Repr

/-- Item codes (R156, R170). -/
def StartItem.code : StartItem → Nat
  | .attachState => 0 | .ovenOk => 1 | .upProfile => 2 | .downProfile => 3 | .target => 4
  | .slotEdges => 5

/-- The sockets that checks 3 to 5 run over: neither EMPTY, RETIRED nor DONE (R156). -/
def startChecked (s : State) (k : Socket) : Bool :=
  match (s.sock k).state with
  | .empty | .retired | .done => false
  | .idle | .starting | .stressing | .stopping | .held => true

/-- The lowest checked socket that a check fails on. -/
def lowestSocket (s : State) (bad : Socket → Bool) : Option Socket :=
  allSockets.find? fun k => startChecked s k && bad k

/-- The socket's up-profile is not valid as one (R156, check 3). -/
def badUp (s : State) (k : Socket) : Bool := !upValid (look s.profiles (s.sock k).params.upProfile)

/-- The socket's down-profile is not valid as one (R156, check 4). -/
def badDown (s : State) (k : Socket) : Bool :=
  !downValid (look s.profiles (s.sock k).params.downProfile)

/-- The socket's target lies above the absolute limit in force (R156, check 5). -/
def badTarget (s : State) (k : Socket) : Bool := decide (s.absLimit < (s.sock k).params.target)

/-- The slot's expected-edge minimum is above its maximum (R156, check 6). -/
def badEdges (s : State) (i : SlotId) : Bool := decide ((s.slot i).edgeMax < (s.slot i).edgeMin)

/-- The first check of Start that fails, with its number if R156 gives one. -/
def startFailure (s : State) : Option (StartItem × Option Nat) :=
  if s.board.attach ≠ .attached then some (.attachState, none)
  else if s.ovenOk = false then some (.ovenOk, none)
  else
    match lowestSocket s (badUp s) with
    | some k => some (.upProfile, some k.val)
    | none =>
      match lowestSocket s (badDown s) with
      | some k => some (.downProfile, some k.val)
      | none =>
        match lowestSocket s (badTarget s) with
        | some k => some (.target, some k.val)
        | none =>
          match allSlots.find? (badEdges s) with
          | some i => some (.slotEdges, some i.val)
          | none => none

/-- A socket that Start takes to STARTING: IDLE, or HELD with hold reason SAFE (R18). -/
def startsAtStart (r : SocketRecord) : Bool :=
  r.state == .idle || (r.state == .held && r.holdReason == some .safe)

/-- One socket at Start (R18). -/
def startAtStart (k : Socket) (s : State) : State :=
  if startsAtStart (s.sock k) then enterStarting k s else s

/-- What the blocks do when Start is accepted (R156): run clock (R148), timers (R104), sockets in index
order (R18). -/
def beginRun (s : State) : State :=
  forSockets startAtStart (loadTimer .timer1 (loadTimer .timer0
    { s with mode := .run, runClock := 0, nextTick := some (s.now + Config.tickMicros) }))

/-- Start (R156). -/
def start (s : State) : State :=
  if s.mode ≠ .config then s.refuse .wrongMode
  else
    match startFailure s with
    | some (item, number) => s.reply .invalid (put1 item.code ++ put1 (number.getD 0xFF))
    | none => replyMode (beginRun s)

/-- START (R156). -/
def execStart (s : State) : Out := outsideReset s start

/-! ### Pause, Resume and Shutdown -/

/-- Both timers changed by one function. -/
def mapTimers (f : Timer → Timer) (s : State) : State :=
  { s with timers := ⟨f s.timers.timer0, f s.timers.timer1⟩ }

/-- Pause: RUN becomes PAUSE, the timers freeze (R104, R157). -/
def pause (broadcast : Bool) (s : State) : State :=
  if s.mode = .run then
    answerMode broadcast (mapTimers (freeze s.now) { s with mode := .pause })
  else refuseMode broadcast s

/-- PAUSE (R157). -/
def execPause (broadcast : Bool) (s : State) : Out := outsideReset s (pause broadcast)

/-- The expiries of the timers that Resume finds without time left (R104). Two of them may be taken in
either order (R106): a free value tells which (log 26). -/
def resumeExpiries (first second : Bool) (s : State) : State :=
  match first, second with
  | false, false => s
  | true, false => expireTimer .timer0 s
  | false, true => expireTimer .timer1 s
  | true, true =>
      if Config.coin s.draws then expireTimer .timer1 (expireTimer .timer0 s.draw)
      else expireTimer .timer0 (expireTimer .timer1 s.draw)

/-- What the blocks do when PAUSE becomes RUN: the timers run on (R104), the arbiter decides (R108), and a
timer frozen with no time left expires at once (R104). -/
def resumeRun (s : State) : State :=
  let thawed := mapTimers (thaw s.now) { s with mode := .run }
  resumeExpiries (timeOut s.now thawed.timers.timer0) (timeOut s.now thawed.timers.timer1)
    (arbiterDecision thawed)

/-- Resume (R157). -/
def resume (broadcast : Bool) (s : State) : State :=
  if s.mode = .pause then answerMode broadcast (resumeRun s) else refuseMode broadcast s

/-- RESUME (R157). -/
def execResume (broadcast : Bool) (s : State) : Out := outsideReset s (resume broadcast)

/-- One socket at the entry to SHUTDOWN: a stop order with destination IDLE for a running one (R20). -/
def stopAtShutdown (k : Socket) (s : State) : State :=
  if s.live k then takeOrder ⟨k, .toIdle⟩ s else s

/-- What the blocks do at the entry to SHUTDOWN (R20, R104, R115, R158); the orders are taken in socket
order (log 31). -/
def beginShutdown (s : State) : State :=
  endShutdown (forSockets stopAtShutdown (shutdownBursts { s with mode := .shutdown }))

/-- Shutdown (R158). -/
def shutdown (s : State) : State :=
  match s.mode with
  | .run | .pause => replyMode (beginShutdown s)
  | .config | .shutdown | .safe => s.refuse .wrongMode

/-- SHUTDOWN (R158). -/
def execShutdown (s : State) : Out := outsideReset s shutdown

/-! ### Restart (R163) -/

/-- The scanner stops: the round is abandoned and every sample record is emptied (R41). -/
def stopScan (s : State) : State :=
  { s with scan :=
    { s.scan with
      round := none
      temp := tab16 fun _ => none
      current := tab16 fun _ => ⟨none, none⟩
      bulk := none } }

/-- A reset cause begins to hold: the outputs are held off and nothing in flight completes until the
reset ends (R163; log 14); a round in progress is abandoned (R41). -/
def beginReset (add : ResetCauses → ResetCauses) (s : State) : State :=
  stopScan { s with resetting := some (add (s.resetting.getD ⟨false, false, false⟩)) }

/-- POWER_ON_RESET (R163). -/
def execPowerOnReset (s : State) : Out := .next (beginReset (fun c => { c with powerOn := true }) s)

/-- RESET_N_ASSERTED (R163). -/
def execResetNAsserted (s : State) : Out := .next (beginReset (fun c => { c with line := true }) s)

/-- CLOCK_LOSS (R163). -/
def execClockLoss (s : State) : Out := .next (beginReset (fun c => { c with clockLoss := true }) s)

/-- The restart cause recorded (R163). -/
def restartCause (c : ResetCauses) : RestartCause :=
  if c.powerOn then .powerOn else if c.line then .line else .clockLoss

/-- RESET_END: every piece of state takes its after-reset value, with the lines as they stand (R163). -/
def execResetEnd (pins : Pins) (s : State) : Out :=
  match s.resetting with
  | some c => .next (.afterReset (restartCause c) pins s.draws s.pending)
  | none => .next s

end Sys2Proof.Machine
end

