-- ==== Sys2Proof/Machine/Board.lean ====
section
/-! DEFINITION. The Board Table Unit (02): attach, board presence, overrides and host-set fields, and the
commands ATTACH, SET_BOARD_FIELD, GET_BOARD_FIELD, BRD_PRESENT_ASSERTED, BRD_PRESENT_DEASSERTED,
ATTACH_READ_SUCCESS, ATTACH_READ_FAILURE, ATTACH_NO_ANSWER, ATTACH_TIMEOUT. -/

namespace Sys2Proof.Machine

/-! ### Leaving ATTACHED, detach, attach -/

/-- What the blocks do when the attach state leaves ATTACHED (R41, R98, R119, R161). -/
def leaveAttached (s : State) : State :=
  if s.board.attach = .attached then
    { dropLevels (resetSupply (stopScan s)) with bulkLow := 0 }
  else s

/-- The board-derived fields are emptied and every override is removed (R24, R28). -/
def emptyBoard (a : AttachState) (reason : Option ReadFailure) (s : State) : State :=
  { s with board :=
    { s.board with
      fields := none, overrides := .none, attach := a, failReason := reason, readDeadline := none } }

/-- An asserted BRD_PRESENT is taken: DETACHED becomes PRESENT (R23). In every other attach state the line
is asserted already. -/
def boardSeated (s : State) : State :=
  if s.board.attach = .detached then { s with board := { s.board with attach := .present } } else s

/-- BRD_PRESENT_ASSERTED (R23). -/
def execBrdPresentAsserted (s : State) : Out := outsideReset s boardSeated

/-- The Mode Controller is told of the removal (R24, R159). -/
def removalMode (s : State) : State :=
  match s.mode with
  | .run | .pause | .shutdown => enterSafe .detach s
  | .config | .safe => s

/-- A deasserted BRD_PRESENT is taken (R23, R24). In DETACHED the line is deasserted already. -/
def boardRemoved (s : State) : State :=
  if s.board.attach = .detached then s
  else removalMode (emptyBoard .detached none (leaveAttached s))

/-- BRD_PRESENT_DEASSERTED (R24). -/
def execBrdPresentDeasserted (s : State) : Out := outsideReset s boardRemoved

/-- Attach is accepted: the read begins (R25, R26). -/
def beginRead (s : State) : State :=
  let left := leaveAttached s
  { left with board :=
    { left.board with
      attach := .attaching
      failReason := none
      readDeadline := some (s.now + Config.readMicros) } }

/-- Attach (R25). -/
def attach (s : State) : State :=
  if s.mode ≠ .config then s.refuse .wrongMode
  else if s.board.attach = .attaching then s.refuse .busy
  else if s.board.attach = .detached then s.refuse .notAttached
  else (beginRead s).reply .ok (put1 AttachState.attaching.code)

/-- ATTACH (R25). -/
def execAttach (s : State) : Out := outsideReset s attach

/-! ### Outcomes of a read -/

/-- A read ends with a failure reason (R28). -/
def failRead (reason : ReadFailure) (s : State) : State :=
  if s.board.attach = .attaching then emptyBoard .failed (some reason) s else s

/-- The record names a new board (R3, R27): no last attached board, another serial or another mask. -/
def isNewBoard (x : BoardRecord) (s : State) : Bool :=
  match s.board.last with
  | none => true
  | some b => decide (b.serial ≠ x.serial) || decide (b.population ≠ x.population)

/-- The board table takes a record (R27): overrides removed, fields full, last attached board. -/
def tableInstalled (x : BoardRecord) (s : State) : State :=
  { s with board :=
    { s.board with
      fields := some x
      overrides := .none
      attach := .attached
      failReason := none
      last := some ⟨x.serial, x.population⟩
      readDeadline := none } }

/-- The host parameters of a socket at a new board: setpoints clamped to the board's ranges, the target
to at most the absolute limit (R3). -/
def newBoardParams (x : BoardRecord) (p : HostParams) : HostParams :=
  { p with
    target := if x.absLimit < p.target then x.absLimit else p.target
    setpoint :=
      ⟨clampNat x.rail.core.spMin x.rail.core.spMax p.setpoint.core,
       clampNat x.rail.aux.spMin x.rail.aux.spMax p.setpoint.aux⟩ }

/-- A socket record at a new board: cleared to its reset values, host parameters excepted, and IDLE where
the position is populated (R3; log 15). -/
def newBoardRecord (x : BoardRecord) (k : Socket) (r : SocketRecord) : SocketRecord :=
  { SocketRecord.reset with
    state := if inSet x.population k then .idle else .empty
    params := newBoardParams x r.params }

/-- A new board's effects beside the board table: fail log, socket records, control states and tick
results (R3, R27, R68, R147). -/
def newBoard (x : BoardRecord) (s : State) : State :=
  { s with
    log := []
    sockets := tab16 fun k => newBoardRecord x k (look s.sockets k)
    heat := tab16 fun _ => .reset
    tickResult := tab16 fun _ => none }

/-- A successful read installs the record (R27); the filtered levels take the lines' present levels
(R119). -/
def installRecord (x : BoardRecord) (mon alm : Half) (s : State) : State :=
  let fresh := isNewBoard x s
  let table := tableInstalled x s
  installLevels fresh mon alm (if fresh then newBoard x table else table)

/-- The read completes with every check passed (R26, R27). Bytes that do not pass them are no success
(log 19). -/
def readSucceeds (image : List Byte) (mon alm : Half) (s : State) : State :=
  match s.board.attach, readImage image with
  | .attaching, .good x => installRecord x mon alm s
  | _, _ => s

/-- ATTACH_READ_SUCCESS (R27). -/
def execAttachReadSuccess (image : List Byte) (mon alm : Half) (s : State) : Out :=
  outsideReset s (readSucceeds image mon alm)

/-- The read completes with BAD_CHECK, BAD_VERSION or BAD_FIELD (R26, R28). Bytes with another outcome are
no such completion (log 19). -/
def readFailsCheck (image : List Byte) (s : State) : State :=
  match readImage image with
  | .bad .noAnswer => s
  | .bad reason => failRead reason s
  | .good _ => s

/-- ATTACH_READ_FAILURE (R28). -/
def execAttachReadFailure (image : List Byte) (s : State) : Out :=
  outsideReset s (readFailsCheck image)

/-- ATTACH_NO_ANSWER: a byte is not acknowledged (R26, R28). -/
def execAttachNoAnswer (s : State) : Out := outsideReset s (failRead .noAnswer)

/-- ATTACH_TIMEOUT: the 150 ms limit runs out (R26, R28). -/
def execAttachTimeout (s : State) : Out := outsideReset s fun t => failRead .noAnswer t

/-! ### Fields -/

/-- The fields of SetBoardField and GetBoardField (R170). -/
inductive Field where
  | trip (r : RailKind)
  | spMax (r : RailKind)
  | spMin (r : RailKind)
  | absLimit
  | bulkLimit
  | inrushLimit
  | runawayGuard
  | runawayDwell
  | stressBand
  | refTemp
  | weightStep
  | weight (i : Fin 8)
  | activityAge
  | holdTime
  | retryLimit
  | interval (t : TimerId)
  | typeCode
  | population
  | heaterRating (k : Socket)
  | calibration (k : Socket)
  | fullScale (r : RailKind)
  | maxPower (r : RailKind)
  | riseMs (r : RailKind)
  | fallMs (r : RailKind)
  | vectorPeriod
  | latency
  | glitchWidth
  | alarmHigh
  | bulkMinimum
  | layoutVersion
  deriving DecidableEq, Repr

/-- The field a code and an index name (R170). -/
def fieldOf (code index : Byte) : Option Field :=
  match code.toNat with
  | 0x01 => some (.trip .core)
  | 0x02 => some (.trip .aux)
  | 0x03 => some (.spMax .core)
  | 0x04 => some (.spMax .aux)
  | 0x05 => some (.spMin .core)
  | 0x06 => some (.spMin .aux)
  | 0x07 => some .absLimit
  | 0x08 => some .bulkLimit
  | 0x10 => some .inrushLimit
  | 0x11 => some .runawayGuard
  | 0x12 => some .runawayDwell
  | 0x13 => some .stressBand
  | 0x14 => some .refTemp
  | 0x15 => some .weightStep
  | 0x16 => (weightOf index).map .weight
  | 0x17 => some .activityAge
  | 0x18 => some .holdTime
  | 0x19 => some .retryLimit
  | 0x1A => some (.interval .timer0)
  | 0x1B => some (.interval .timer1)
  | 0x20 => some .typeCode
  | 0x21 => some .population
  | 0x22 => (socketOf index).map .heaterRating
  | 0x23 => (socketOf index).map .calibration
  | 0x24 => some (.fullScale .core)
  | 0x25 => some (.fullScale .aux)
  | 0x26 => some (.maxPower .core)
  | 0x27 => some (.maxPower .aux)
  | 0x28 => some (.riseMs .core)
  | 0x29 => some (.riseMs .aux)
  | 0x2A => some (.fallMs .core)
  | 0x2B => some (.fallMs .aux)
  | 0x2C => some .vectorPeriod
  | 0x2D => some .latency
  | 0x2E => some .glitchWidth
  | 0x2F => some .alarmHigh
  | 0x30 => some .bulkMinimum
  | 0x31 => some .layoutVersion
  | _ => none

/-- The board value of a field; a host-set field has none. -/
def boardValue (x : BoardRecord) : Field → Option Int
  | .trip r => some (x.rail.get r).trip
  | .spMax r => some (x.rail.get r).spMax
  | .spMin r => some (x.rail.get r).spMin
  | .absLimit => some x.absLimit
  | .bulkLimit => some x.bulkLimit
  | .typeCode => some x.typeCode.toNat
  | .population => some x.population.toNat
  | .heaterRating k => some (look x.heaterRating k : Nat)
  | .calibration k => some (look x.calibration k)
  | .fullScale r => some (x.rail.get r).fullScale
  | .maxPower r => some (x.rail.get r).maxPower
  | .riseMs r => some (x.rail.get r).riseMs
  | .fallMs r => some (x.rail.get r).fallMs
  | .vectorPeriod => some x.vectorPeriod
  | .latency => some x.latency
  | .glitchWidth => some x.glitchWidth
  | .alarmHigh => some x.alarmHigh.toNat
  | .bulkMinimum => some x.bulkMinimum
  | .layoutVersion => some x.layoutVersion
  | .inrushLimit | .runawayGuard | .runawayDwell | .stressBand | .refTemp | .weightStep | .weight _
  | .activityAge | .holdTime | .retryLimit | .interval _ => none

/-- The override of a field (R31). -/
def overrideValue (o : Overrides) : Field → Option Int
  | .trip r => (o.trip.get r).map Int.ofNat
  | .spMax r => (o.spMax.get r).map Int.ofNat
  | .spMin r => (o.spMin.get r).map Int.ofNat
  | .absLimit => o.absLimit
  | .bulkLimit => o.bulkLimit.map Int.ofNat
  | .inrushLimit | .runawayGuard | .runawayDwell | .stressBand | .refTemp | .weightStep | .weight _
  | .activityAge | .holdTime | .retryLimit | .interval _ | .typeCode | .population
  | .heaterRating _ | .calibration _ | .fullScale _ | .maxPower _ | .riseMs _ | .fallMs _
  | .vectorPeriod | .latency | .glitchWidth | .alarmHigh | .bulkMinimum | .layoutVersion => none

/-- The value of a host-set field (R30). -/
def hostValue (h : HostFields) : Field → Option Int
  | .inrushLimit => some h.inrushLimit
  | .runawayGuard => some h.runawayGuard
  | .runawayDwell => some h.runawayDwell
  | .stressBand => some h.stressBand
  | .refTemp => some h.refTemp
  | .weightStep => some h.weightStep
  | .weight i => some (look h.weights i : Nat)
  | .activityAge => some h.activityAge
  | .holdTime => some h.holdTime
  | .retryLimit => some h.retryLimit
  | .interval .timer0 => some h.interval0
  | .interval .timer1 => some h.interval1
  | .trip _ | .spMax _ | .spMin _ | .absLimit | .bulkLimit | .typeCode | .population
  | .heaterRating _ | .calibration _ | .fullScale _ | .maxPower _ | .riseMs _ | .fallMs _
  | .vectorPeriod | .latency | .glitchWidth | .alarmHigh | .bulkMinimum | .layoutVersion => none

/-- The value in force of a field: host-set, or the override when one exists, or the board value; absent
while the board-derived fields are empty (R21, R33). -/
def inForce (s : State) (f : Field) : Option Int :=
  match hostValue s.board.host f with
  | some v => some v
  | none =>
      match s.board.fields with
      | none => none
      | some x =>
          match overrideValue s.board.overrides f with
          | some v => some v
          | none => boardValue x f

/-- A host-set field that SetBoardField writes, with its range (R30). -/
def hostRange : Field → Option (Int × Int)
  | .inrushLimit => some (1, 8)
  | .runawayGuard => some (16, 800)
  | .runawayDwell => some (1, 255)
  | .stressBand => some (8, 320)
  | .refTemp => some (-640, 3200)
  | .weightStep => some (16, 320)
  | .weight _ => some (0, 65535)
  | .activityAge => some (0, 65535)
  | .holdTime => some (0, 65535)
  | .retryLimit => some (0, 7)
  | .trip _ | .spMax _ | .spMin _ | .absLimit | .bulkLimit | .interval _ | .typeCode | .population
  | .heaterRating _ | .calibration _ | .fullScale _ | .maxPower _ | .riseMs _ | .fallMs _
  | .vectorPeriod | .latency | .glitchWidth | .alarmHigh | .bulkMinimum | .layoutVersion => none

/-- Write a host-set field with a value of its range (R30). -/
def writeHost (h : HostFields) (v : Int) : Field → HostFields
  | .inrushLimit => { h with inrushLimit := v.toNat }
  | .runawayGuard => { h with runawayGuard := v.toNat }
  | .runawayDwell => { h with runawayDwell := v.toNat }
  | .stressBand => { h with stressBand := v.toNat }
  | .refTemp => { h with refTemp := v }
  | .weightStep => { h with weightStep := v.toNat }
  | .weight i => { h with weights := put h.weights i v.toNat }
  | .activityAge => { h with activityAge := v.toNat }
  | .holdTime => { h with holdTime := v.toNat }
  | .retryLimit => { h with retryLimit := v.toNat }
  | .trip _ | .spMax _ | .spMin _ | .absLimit | .bulkLimit | .interval _ | .typeCode | .population
  | .heaterRating _ | .calibration _ | .fullScale _ | .maxPower _ | .riseMs _ | .fallMs _
  | .vectorPeriod | .latency | .glitchWidth | .alarmHigh | .bulkMinimum | .layoutVersion => h

/-- The floor of an overridable field (R31). -/
def overrideFloor : Field → Option Int
  | .trip _ => some 1
  | .spMax _ => some 0
  | .spMin _ => some 0
  | .absLimit => some 800
  | .bulkLimit => some 1
  | .inrushLimit | .runawayGuard | .runawayDwell | .stressBand | .refTemp | .weightStep | .weight _
  | .activityAge | .holdTime | .retryLimit | .interval _ | .typeCode | .population
  | .heaterRating _ | .calibration _ | .fullScale _ | .maxPower _ | .riseMs _ | .fallMs _
  | .vectorPeriod | .latency | .glitchWidth | .alarmHigh | .bulkMinimum | .layoutVersion => none

/-- A setpoint maximum as written: rounded down, then the lower of that and the board maximum, then raised
to the minimum in force (R31). -/
def adjustMax (r : RailKind) (v : Nat) (s : State) : Nat :=
  higherOf (s.spMin r) (lowerOf (floorFive v) (s.brd.rail.get r).spMax)

/-- A setpoint minimum as written: rounded down, then the higher of that and the board minimum, then
lowered to the maximum in force (R31). -/
def adjustMin (r : RailKind) (v : Nat) (s : State) : Nat :=
  lowerOf (s.spMax r) (higherOf (floorFive v) (s.brd.rail.get r).spMin)

/-- The overrides with one field written, adjusted by R31. -/
def writeOverride (s : State) (v : Int) : Field → Overrides
  | .trip r =>
      { s.board.overrides with trip :=
          s.board.overrides.trip.set r (some (lowerOf v.toNat (s.brd.rail.get r).trip)) }
  | .spMax r =>
      { s.board.overrides with spMax :=
          s.board.overrides.spMax.set r (some (adjustMax r v.toNat s)) }
  | .spMin r =>
      { s.board.overrides with spMin :=
          s.board.overrides.spMin.set r (some (adjustMin r v.toNat s)) }
  | .absLimit =>
      { s.board.overrides with absLimit := some (if v ≤ s.brd.absLimit then v else s.brd.absLimit) }
  | .bulkLimit =>
      { s.board.overrides with bulkLimit := some (lowerOf v.toNat s.brd.bulkLimit) }
  | .inrushLimit | .runawayGuard | .runawayDwell | .stressBand | .refTemp | .weightStep | .weight _
  | .activityAge | .holdTime | .retryLimit | .interval _ | .typeCode | .population
  | .heaterRating _ | .calibration _ | .fullScale _ | .maxPower _ | .riseMs _ | .fallMs _
  | .vectorPeriod | .latency | .glitchWidth | .alarmHigh | .bulkMinimum | .layoutVersion =>
      s.board.overrides

/-- Every socket's setpoint of a rail type is clamped into the range in force (R2, R32). -/
def clampSetpoints (r : RailKind) (s : State) : State :=
  { s with sockets := tab16 fun k =>
      let x := look s.sockets k
      { x with params :=
          { x.params with setpoint := x.params.setpoint.set r (s.effSetpoint k r) } } }

/-- A setpoint range that has narrowed clamps the setpoints of its rail type (R2, R32). -/
def clampNarrowed (r : RailKind) (before after : State) : State :=
  if before.spMin r < after.spMin r ∨ after.spMax r < before.spMax r then clampSetpoints r after
  else after

/-- An override is written (R31, R32). -/
def installOverride (f : Field) (v : Int) (s : State) : State :=
  let written : State := { s with board := { s.board with overrides := writeOverride s v f } }
  clampNarrowed .aux s (clampNarrowed .core s written)

/-- The reply of SetBoardField: the value now in force (R170). -/
def fieldReply (code index : Byte) (f : Field) (s : State) : State :=
  s.reply .ok ([code, index] ++ put4s ((inForce s f).getD 0))

/-- SetBoardField on a field (R30, R31). -/
def setField (code index : Byte) (f : Field) (v : Int) (s : State) : State :=
  match hostRange f, overrideFloor f with
  | some (lo, hi), _ =>
      if v < lo ∨ hi < v then s.refuse .range
      else
        fieldReply code index f
          { s with board := { s.board with host := writeHost s.board.host v f } }
  | none, some floor =>
      if s.board.attach ≠ .attached then s.refuse .notAttached
      else if v < floor then s.refuse .range
      else fieldReply code index f (installOverride f v s)
  | none, none => s.refuse .range

/-- SetBoardField (R30, R31). -/
def setBoardField (code index : Byte) (value : Word) (s : State) : State :=
  if s.mode ≠ .config then s.refuse .wrongMode
  else if s.board.attach = .attaching then s.refuse .busy
  else
    match fieldOf code index with
    | none => s.refuse .range
    | some f => setField code index f value.toInt s

/-- SET_BOARD_FIELD (R30). -/
def execSetBoardField (code index : Byte) (value : Word) (s : State) : Out :=
  outsideReset s (setBoardField code index value)

/-- A number of a reply that may be absent, four bytes (R170; log 12). -/
def putOptional (site : AbsentSite) (s : State) : Option Int → List Byte
  | some v => put4s v
  | none => put4 (Config.absentNumber site s.draws)

/-- The reply of GetBoardField (R33, R170): presence bit 0 board value, bit 1 override, bit 2 in force; a
host-set field gives its value as in force. For a board-derived field that cannot be overridden R33 names the
board value alone; the model sets presence bit 2 with it and sends the board value again as the value in force
(DESIGN CHOICE, log 35). -/
def getFieldReply (code index : Byte) (f : Field) (s : State) : State :=
  let b := s.board.fields.bind fun x => boardValue x f
  let o := overrideValue s.board.overrides f
  let v := inForce s f
  let presence := (if b.isSome then 1 else 0) + (if o.isSome then 2 else 0)
    + (if v.isSome then 4 else 0)
  (s.reply .ok ([code, index] ++ put1 presence ++ putOptional .boardValue s b
    ++ putOptional .overrideValue s o ++ putOptional .inForceValue s v)).draw

/-- GetBoardField (R33). -/
def getBoardField (code index : Byte) (s : State) : State :=
  match fieldOf code index with
  | none => s.refuse .range
  | some f => getFieldReply code index f s

/-- GET_BOARD_FIELD (R33). -/
def execGetBoardField (code index : Byte) (s : State) : Out :=
  outsideReset s (getBoardField code index)

end Sys2Proof.Machine
end

