-- ==== Sys2Proof/Machine/Fails.lean ====
section
/-! DEFINITION. The Fail Handler (09): counting, acting, the fail log, the policy table, and the commands
FAIL_TAKEN, SET_POLICY, GET_POLICY, READ_FAILS. -/

namespace Sys2Proof.Machine

/-! ### Counting (R137) -/

/-- The counts of a socket record after one fail of a kind taken at a run time (R137). -/
def countRecord (f : FailKind) (time : Nat) (r : SocketRecord) : SocketRecord :=
  let i := kindIndex f
  { r with
    cumulative := put r.cumulative i (satAdd 65535 (look r.cumulative i) 1)
    episode := put r.episode i (satAdd 255 (look r.episode i) 1)
    firstFail := match r.firstFail with
      | some x => some x
      | none => some ⟨f, time⟩
    lastFail := some ⟨f, time⟩ }

/-! ### Acting (R138, R139) -/

/-- The episode count of the kind has reached the threshold of its policy entry (R138). -/
def reached (f : FailMsg) (s : State) : Bool :=
  decide ((look s.policy (kindIndex f.kind)).threshold
    ≤ look (s.sock f.socket).episode (kindIndex f.kind))

/-- The stop order and log action for a fail of a STARTING or STRESSING socket (R138). -/
def actRunning (f : FailMsg) (s : State) : Option OrderDest × LogAction :=
  match (look s.policy (kindIndex f.kind)).action with
  | .count => (none, .none)
  | .hold => if reached f s then (some (.toPolicyHold f.kind), .hold) else (none, .none)
  | .retire => if reached f s then (some (.toRetired f.kind), .retire) else (none, .none)

/-- The stop order and log action for a fail of a STOPPING socket (R139). -/
def actStopping (f : FailMsg) (s : State) : Option OrderDest × LogAction :=
  match (look s.policy (kindIndex f.kind)).action with
  | .retire =>
      if reached f s = true ∧ (s.sock f.socket).stopDest ≠ some .retired then
        (some (.toRetired f.kind), .retire)
      else (none, .late)
  | .count | .hold => (none, .late)

/-! ### The fail log (R141) -/

/-- The entry a fail would form (R141). -/
def entryOf (f : FailMsg) (time : Nat) (a : LogAction) : LogEntry where
  socket := f.socket
  kind := f.kind
  direction := f.direction
  detail := f.detail
  time := time
  action := a
  repeats := 1

/-- The new fail coalesces into this newest entry (R141). -/
def coalesces (newest e : LogEntry) : Bool :=
  newest.socket == e.socket && newest.kind == e.kind && newest.action == .none && e.action == .none
    && decide (newest.repeats < 255)

/-- The log with its newest entry's repeat count increased by 1. -/
def bumpNewest : List LogEntry → List LogEntry
  | [] => []
  | [x] => [{ x with repeats := x.repeats + 1 }]
  | x :: y :: rest => x :: bumpNewest (y :: rest)

/-- What R141 does with an entry. -/
inductive Storing where
  | coalesce | append | dropped
  deriving DecidableEq, Repr

/-- Which of the three ways of R141 applies. -/
def storing (log : List LogEntry) (e : LogEntry) : Storing :=
  if (match log.getLast? with
      | some newest => coalesces newest e
      | none => false) = true then .coalesce
  else if log.length < Config.logDepth then .append
  else .dropped

/-- The fail is logged: coalesced, appended or dropped (R141, R143). -/
def storeEntry (e : LogEntry) (s : State) : State :=
  match storing s.log e with
  | .coalesce => { s with log := bumpNewest s.log }
  | .append => { s with log := s.log ++ [e] }
  | .dropped => s.modSock e.socket fun r => { r with unlogged := satAdd 255 r.unlogged 1 }

/-! ### Taking a fail -/

/-- A fail is acted on and logged, once it is counted: its stop order, if any, is taken in the same event
(R136, R138, R139, R141). -/
def actAndLog (f : FailMsg) (act : Option OrderDest × LogAction) (s : State) : State :=
  let stopped := match act.1 with
    | some d => takeOrder ⟨f.socket, d⟩ s
    | none => s
  storeEntry (entryOf f s.runClock act.2) stopped

/-- The Fail Handler takes a fail, by the socket's state (R136). -/
def takeFail (f : FailMsg) (s : State) : State :=
  let counted := s.modSock f.socket (countRecord f.kind s.runClock)
  match (s.sock f.socket).state with
  | .starting | .stressing => actAndLog f (actRunning f counted) counted
  | .stopping => actAndLog f (actStopping f counted) counted
  | .empty | .idle | .held | .retired | .done => s

/-- FAIL_TAKEN: a fail in flight is taken off the list of fails (log 5). -/
def takeFailMessage (f : FailMsg) (s : State) : State :=
  takeFail f { s with fails := s.fails.erase f }

/-- FAIL_TAKEN (R136). -/
def execFailTaken (f : FailMsg) (s : State) : Out := outsideReset s (takeFailMessage f)

/-! ### Requests -/

/-- SetPolicy's adjustments for OVERCURRENT and OVERTEMP (R134). -/
def adjustPolicy (f : FailKind) (e : PolicyEntry) : PolicyEntry :=
  match f with
  | .overcurrent | .overtemp =>
      { e with
        action := match e.action with
          | .count => .hold
          | .hold => .hold
          | .retire => .retire
        threshold := 1 }
  | .undercurrent | .regFault | .runaway | .sensor | .activity | .dutAlarm => e

/-- The three bytes of a policy entry (R170). -/
def putPolicy (e : PolicyEntry) : List Byte := put1 e.action.code ++ put1 e.threshold ++ put1 e.bin

/-- SetPolicy's checks and effect (R134). The threshold field is one byte, so that none is above 255. -/
def setPolicy (kind action threshold bin : Byte) (s : State) : State :=
  if s.mode ≠ .config then s.refuse .wrongMode
  else
    match failKindOf kind, actionOf action with
    | some f, some a =>
        if threshold.toNat = 0 then s.refuse .range
        else if bin.toNat < 2 ∨ 15 < bin.toNat then s.refuse .range
        else
          let e := adjustPolicy f ⟨a, threshold.toNat, bin.toNat⟩
          { s with policy := put s.policy (kindIndex f) e }.reply .ok (putPolicy e)
    | _, _ => s.refuse .range

/-- SET_POLICY (R134). -/
def execSetPolicy (kind action threshold bin : Byte) (s : State) : Out :=
  outsideReset s (setPolicy kind action threshold bin)

/-- GetPolicy: every entry in kind-code order (R135). -/
def getPolicy (s : State) : State := s.reply .ok (s.policy.toList.flatMap putPolicy)

/-- GET_POLICY (R135). -/
def execGetPolicy (s : State) : Out := outsideReset s getPolicy

/-- The eleven bytes of a fail log entry (R171). -/
def putEntry (e : LogEntry) : List Byte :=
  put1 e.socket.val ++ put1 (kindCode e.kind) ++ putNamed directionCode e.direction
    ++ put2 e.detail.toNat ++ put4 e.time ++ put1 e.action.code ++ put1 e.repeats

/-- ReadFails removes and returns the oldest entries (R144). -/
def readFails (n : Byte) (s : State) : State :=
  if n.toNat = 0 ∨ 8 < n.toNat then s.refuse .range
  else
    let taken := s.log.take n.toNat
    let left := s.log.drop n.toNat
    { s with log := left }.reply .ok
      (put1 taken.length ++ taken.flatMap putEntry ++ put1 left.length)

/-- READ_FAILS (R144). -/
def execReadFails (n : Byte) (s : State) : Out := outsideReset s (readFails n)

end Sys2Proof.Machine
end

