-- ==== Sys2Proof/Machine/Raised.lean ====
section
/-! DEFINITION. The events whose fails the Fail Handler takes in the same step, before any other event: the
judgment of a VERIFY step (04), a temperature sample (05), the close of a window (WINDOW_CLOSE), an alarm
level (ALARM_LEVEL_TAKEN; 08). A stop order or a report that comes later finds such a fail handled (R59, R72,
R125, R128), and each kind is taken only in the states that R132 lists for it (DEDUCED, log 39). -/

namespace Sys2Proof.Machine

/-! ### VERIFY judgments (R59) -/

/-- The fail of a VERIFY judgment is taken once the sample has reached both its users and the run has moved
on (R39, R59, R132; log 39). -/
def takeVerdict (v : Option FailMsg) (s : State) : State :=
  match v with
  | some f => takeFail f s
  | none => s

/-! ### Temperature samples (R72 to R81) -/

/-- A temperature as a 16-bit detail (R81). -/
def tempDetail (t : Int) : Half := BitVec.ofInt 16 t

/-- Stage 1 for a sample that is not valid (R73). -/
def invalidSample (k : Socket) (code : Nat) (s : State) : State :=
  let zeroed := zeroHeat k s
  let n := (look s.heat k).invalid + 1
  if n < 3 then zeroed.modHeat k fun c => { c with invalid := n }
  else
    takeFail ⟨k, .sensor, BitVec.ofNat 16 code, none⟩
      (zeroed.modHeat k fun c => { c with invalid := 0 })

/-- Stage 2, absolute limit reached (R74). -/
def overLimit (k : Socket) (t : Int) (s : State) : State :=
  takeFail ⟨k, .overtemp, tempDetail t, none⟩ (zeroHeat k s)

/-- Stages 1 to 10 for a valid sample of a running socket (R73 to R80). -/
def validSample (k : Socket) (t : Int) (s : State) : State :=
  let counted := s.modHeat k fun c => { c with invalid := 0 }
  if s.absLimit ≤ t then overLimit k t counted
  else
    let out := heatStages (heatInputs k counted) t (look counted.heat k)
    let done := counted.modHeat k fun _ => out.1
    if out.2 then takeFail ⟨k, .runaway, tempDetail t, none⟩ done else done

/-- A TEMP arrival at the Heater Controller, by the socket's state (R72). -/
def heaterSample (k : Socket) (x : Sample) (s : State) : State :=
  match (s.sock k).state with
  | .starting | .stressing =>
      match x.validity, x.value with
      | .valid, some t => validSample k t s
      | _, _ => invalidSample k x.code s
  | .stopping =>
      match x.validity, x.value with
      | .valid, some t => if s.absLimit ≤ t then overLimit k t s else s
      | _, _ => s
  | .empty | .idle | .held | .retired | .done => s

/-! ### Windows (R126, R127) -/

/-- A window's close time is reached: it is judged and becomes absent (R126, R127). -/
def closeWindow (k : Socket) (s : State) : State :=
  match windowOf k s with
  | none => s
  | some w =>
      let gone := setWindow k none s
      match judge w with
      | .pass => gone.modSock k fun r => { r with lastPass := some s.runClock }
      | .fail d => takeFail ⟨k, .activity, BitVec.ofNat 16 w.edges, some d⟩ gone

/-- WINDOW_CLOSE (R126). -/
def execWindowClose (k : Socket) (s : State) : Out := outsideReset s (closeWindow k)

/-! ### Alarms (R128) -/

/-- An alarm edge, by the socket's alarm enables (R128). -/
def alarmEdge (k : Socket) (s : State) : State :=
  let p := (s.sock k).params
  if p.latchEnable then
    let latched := s.modMon k fun m => { m with latch := true }
    if p.reportEnable && s.live k then takeFail ⟨k, .dutAlarm, 0#16, none⟩ latched else latched
  else s

/-- A new alarm line level is taken; a change from INACTIVE to ACTIVE is an alarm edge (R128). -/
def takeAlarm (k : Socket) (level : LineLevel) (s : State) : State :=
  if watched k s = true then
    let new := alarmLevel k level s
    let taken := s.modMon k fun m => { m with alarm := some new }
    if (look s.mon k).alarm = some .inactive ∧ new = .active then alarmEdge k taken else taken
  else s

/-- ALARM_LEVEL_TAKEN (R128). -/
def execAlarmLevelTaken (k : Socket) (level : LineLevel) (s : State) : Out :=
  outsideReset s (takeAlarm k level)

end Sys2Proof.Machine
end

