-- ==== Sys2Proof/Machine/Sense.lean ====
section
/-! DEFINITION. The Sense Scanner (03): conversions, rounds, deliveries, and the commands ROUND_BOUNDARY and
CHANNEL_ARRIVAL. -/

namespace Sys2Proof.Machine

/-! ### Converting codes -/

/-- The temperature of a code from 16 to 4079, with the socket's calibration offset (R42). -/
def tempValue (code : Nat) (offset : Int) : Int :=
  clampInt (-640) 3200 ((code * 15 / 16 : Nat) - 640 + offset)

/-- The sample of a TEMP code (R42). -/
def tempSample (code : Nat) (offset : Int) (round : Nat) : Sample :=
  if code < 16 then ⟨none, .short, code, round⟩
  else if code < 4080 then ⟨some (tempValue code offset), .valid, code, round⟩
  else ⟨none, .openCircuit, code, round⟩

/-- The current of a code in 10 mA (R43). -/
def currentValue (code fullScale : Nat) : Nat := code * fullScale / 4096

/-- The bulk voltage of a code in mV (R44). -/
def bulkValue (code : Nat) : Nat := code * 16

/-! ### Rounds -/

/-- The first populated position from `n` on. -/
def populatedFrom (n : Nat) (s : State) : Option Socket :=
  allSockets.find? fun k => decide (n ≤ k.val) && s.populated k

/-- The TEMP channel of the first populated position from `n` on, or BULK_V (R37). -/
def channelFrom (n : Nat) (s : State) : Channel :=
  match populatedFrom n s with
  | some k => .temp k
  | none => .bulk

/-- The channel after a channel in the order of R37; none after BULK_V. -/
def nextChannel (s : State) : Channel → Option Channel
  | .temp k => some (.current k .core)
  | .current k .core => some (.current k .aux)
  | .current k .aux => some (channelFrom (k.val + 1) s)
  | .bulk => none

/-- A boundary of the round boundary clock: a round starts if the attach state is ATTACHED and none is in
progress (R36). -/
def takeBoundary (s : State) : State :=
  let next := s.now + Config.roundMicros
  if s.board.attach = .attached ∧ s.scan.round = none then
    let number := (s.scan.counter + 1) % 256
    { s with scan :=
      { s.scan with
        nextBoundary := next
        counter := number
        round := some ⟨number, channelFrom 0 s, s.now + Config.codeMicros⟩ } }
  else { s with scan := { s.scan with nextBoundary := next } }

/-- ROUND_BOUNDARY (R36). -/
def execRoundBoundary (s : State) : Out := outsideReset s takeBoundary

/-! ### Arrivals -/

/-- The scanner moves on to the next channel; with none left the round is no longer in progress (R38,
R40). -/
def advanceRound (rd : Round) (s : State) : State :=
  let next := (nextChannel s rd.next).map fun c => (⟨rd.number, c, s.now + Config.codeMicros⟩ : Round)
  { s with scan := { s.scan with round := next } }

/-- A TEMP arrival (R38, R39): its record is replaced, and the Heater Controller takes it. -/
def arriveTemp (k : Socket) (x : Sample) (s : State) : State :=
  heaterSample k x { s with scan := { s.scan with temp := put s.scan.temp k (some x) } }

/-- A current arrival at its two users (R39): the Supply Allotter sets the rail's mark (R88) and the Rail
Sequencer judges the sample. Where the judgment itself changes the rail's state, R88 allows either order
of the two, and a free value tells which (log 9). -/
def deliverCurrent (k : Socket) (r : RailKind) (current : Nat) (s : State) : State :=
  let judged := sequencerSample k r current (setMark k r true s)
  if (look judged.supply.measured k).get r then judged
  else if Config.coin judged.draws then setMark k r true judged.draw
  else judged.draw

/-- A current arrival (R38, R39): its record is replaced, both users take it, and the fail of a VERIFY
judgment follows. -/
def arriveCurrent (k : Socket) (r : RailKind) (x : Sample) (s : State) : State :=
  let current := (x.value.getD 0).toNat
  let recorded : State :=
    { s with scan :=
      { s.scan with
        current := put s.scan.current k ((look s.scan.current k).set r (some x)) } }
  takeVerdict (verdict k r current recorded) (deliverCurrent k r current recorded)

/-- A BULK_V arrival at the Mode Controller (R161). -/
def compareBulk (mV : Nat) (s : State) : State :=
  if mV < s.brd.bulkMinimum then
    if s.bulkLow = 0 then { s with bulkLow := 1 }
    else enterSafe .bulkLow { s with bulkLow := 0 }
  else { s with bulkLow := 0 }

/-- A BULK_V arrival (R38, R39) and the end of the round it completes (R40). -/
def arriveBulk (x : Sample) (s : State) : State :=
  roundEnd (compareBulk (x.value.getD 0).toNat { s with scan := { s.scan with bulk := some x } })

/-- The code of the next channel of the round in progress arrives (R38). A code that comes before its time
`codeAt` (R37) is taken as well, and the next code is due 400 µs after the arrival taken (DESIGN CHOICE,
log 37). -/
def takeCode (code : Nat) (s : State) : State :=
  match s.scan.round with
  | none => s
  | some rd =>
      let moved := advanceRound rd s
      match rd.next with
      | .temp k => arriveTemp k (tempSample code (look s.brd.calibration k) rd.number) moved
      | .current k r =>
          arriveCurrent k r
            ⟨some (currentValue code (s.brd.rail.get r).fullScale), .valid, code, rd.number⟩ moved
      | .bulk => arriveBulk ⟨some (bulkValue code), .valid, code, rd.number⟩ moved

/-- CHANNEL_ARRIVAL (R38). -/
def execChannelArrival (code : BitVec 12) (s : State) : Out := outsideReset s (takeCode code.toNat)

end Sys2Proof.Machine
end

