-- ==== Sys2Proof/Machine/Replies.lean ====
section
/-! DEFINITION. The record layouts of the link chapter (R170, R171), and the commands IDENTIFY,
GET_BOARD_STATUS and GET_SOCKET. -/

namespace Sys2Proof.Machine

/-! ### Parts of the layouts -/

/-- A presence byte: bit n for the n-th flag (R171). -/
def presenceByte (flags : List Bool) : Nat :=
  flags.foldr (fun b n => (if b then 1 else 0) + 2 * n) 0

/-- A number sent as 0 when it is absent, with a presence bit elsewhere (R171). -/
def orZero {α : Type} (f : α → List Byte) (width : Nat) : Option α → List Byte
  | some x => f x
  | none => List.replicate width 0#8

/-- A number that is absent without a stated value (log 12). -/
def orFree (site : AbsentSite) (s : State) : Option Nat → Nat
  | some n => n
  | none => Config.absentNumber site s.draws

/-- A sample record, six bytes: validity, code, value, round (R171). Code, value and round of an empty
record, and the value of a SHORT or OPEN record, are 0. -/
def putSample : Option Sample → List Byte
  | none => put1 0xFF ++ put2 0 ++ put2 0 ++ put1 0
  | some x => put1 x.validity.code ++ put2 x.code ++ put2s (x.value.getD 0) ++ put1 x.round

/-- A fail stamp, five bytes: kind and run time (R171). -/
def putStamp (x : FailStamp) : List Byte := put1 (kindCode x.kind) ++ put4 x.time

/-- A rail, ten bytes (R171): state, time remaining in ms rounded up, effective setpoint, contribution,
flags, rail power; a rail power whose flag is clear is sent as 0. -/
def putRail (k : Socket) (r : RailKind) (s : State) : List Byte :=
  let x := s.rail k r
  let power := s.railPower k r
  put1 x.state.code
    ++ put2 (orFree (.railTime k r) s (x.deadline.map s.msTo))
    ++ put2 (s.effSetpoint k r)
    ++ put2 ((look s.supply.contribution k).get r)
    ++ put1 (presenceByte [(look s.supply.measured k).get r, power.isSome])
    ++ orZero put2 2 power

/-- The end of the dwell a run waits for. -/
def dwellDeadline : StepCondition → Option Nat
  | .dwell d => some d
  | .waitOff | .waitGrant | .rising | .falling | .sample => none

/-- A profile run, six bytes (R171). -/
def putRun (s : State) (x : Run) : List Byte :=
  put1 x.direction.code ++ put1 x.profile.val ++ put1 x.step ++ put1 x.cond.code
    ++ put2 (orFree .dwellTime s ((dwellDeadline x.cond).map s.msTo))

/-- The fields of an activity window, fifteen bytes (R131, R171): the expected minimum and maximum are
the confirmed ones plus the pending contribution's (R118). -/
def putWindow (s : State) (w : Window) : List Byte :=
  let pendingMin := match w.waiting with
    | some c => c.minimum
    | none => 0
  let pendingMax := match w.waiting with
    | some c => c.maximum
    | none => 0
  put2 w.edges ++ put2 (satAdd 65535 w.confirmedMin pendingMin)
    ++ put2 (satAdd 65535 w.confirmedMax pendingMax) ++ put2 w.confirmedMin ++ put2 w.confirmedMax
    ++ put2 w.confirmed ++ putNamed (fun (c : Contribution) => c.slot.val) w.waiting
    ++ put2 (s.msTo w.closeAt)

/-- The band index of a tick result. -/
def bandOf : Option TickResult → Option Nat
  | some (.qualified b) => some b.val
  | some .noTemp | some .outOfBand | some .rails | some .noActivity | none => none

/-- The host parameters, thirteen bytes (R171). -/
def putParams (p : HostParams) : List Byte :=
  put2s p.target ++ put1 p.ramp ++ put1 p.kp ++ put1 p.ki ++ put2 p.setpoint.core
    ++ put2 p.setpoint.aux ++ put1 p.upProfile.val ++ put1 p.downProfile.val ++ put1 p.edge.code
    ++ put1 (presenceByte [p.latchEnable, p.reportEnable])

/-! ### GetSocket -/

/-- Offsets 1 to 60 of the GetSocket reply (R171). -/
def socketHead (k : Socket) (s : State) : List Byte :=
  let r := s.sock k
  let m := look s.mon k
  put1 k.val ++ put1 r.state.code ++ putNamed StopDest.code r.stopDest
    ++ putNamed HoldReason.code r.holdReason ++ putNamed kindCode r.holdKind
    ++ putNamed kindCode r.retireKind ++ put1 r.retries ++ put1 r.bin
    ++ put1 (presenceByte [r.holdTime.isSome, r.firstFail.isSome, r.lastFail.isSome,
        r.lastPass.isSome, (look s.heat k).effective.isSome, m.window.isSome, (s.run k).isSome])
    ++ orZero put2 2 r.holdTime
    ++ r.episode.toList.flatMap put1 ++ r.cumulative.toList.flatMap put2
    ++ orZero putStamp 5 r.firstFail ++ orZero putStamp 5 r.lastFail
    ++ put1 r.unlogged ++ put4 r.credit ++ put4 r.stressTarget ++ orZero put4 4 r.lastPass
    ++ putNamed TickResult.code (look s.tickResult k)
    ++ put1 (orFree .bandIndex s (bandOf (look s.tickResult k)))

/-- Offsets 61 to 117 of the GetSocket reply (R171). -/
def socketRails (k : Socket) (s : State) : List Byte :=
  putParams (s.sock k).params
    ++ putSample (look s.scan.temp k) ++ putSample (s.currentOf k .core)
    ++ putSample (s.currentOf k .aux)
    ++ putRail k .core s ++ putRail k .aux s
    ++ orZero (putRun s) 6 (s.run k)

/-- Offsets 118 to 150 of the GetSocket reply (R171). -/
def socketHeat (k : Socket) (s : State) : List Byte :=
  let c := look s.heat k
  let m := look s.mon k
  orZero put2s 2 c.effective ++ put4 c.integrator ++ put1 c.invalid ++ put1 c.runaway
    ++ put2 c.demand ++ put2 (look s.supply.applied k) ++ put2 (look s.active k)
    ++ putFlag (look s.supply.curtailed k)
    ++ putNamed levelCode m.level ++ orZero (putWindow s) 15 m.window
    ++ putFlag m.latch ++ putNamed AlarmLevel.code m.alarm

/-- The GetSocket layout after the result code (R171). -/
def socketBytes (k : Socket) (s : State) : List Byte :=
  socketHead k s ++ socketRails k s ++ socketHeat k s

/-- GetSocket: checks 1 and 3 of R12 alone. -/
def getSocket (n : Byte) (s : State) : State :=
  match socketOf n with
  | none => s.refuse .range
  | some k =>
      if (s.sock k).state = .empty then s.refuse .emptySocket
      else (s.reply .ok (socketBytes k s)).draw

/-- GET_SOCKET (R12). -/
def execGetSocket (n : Byte) (s : State) : Out := outsideReset s (getSocket n)

/-! ### GetBoardStatus -/

/-- A serial: its length, then 16 bytes of characters padded with 0 (R171). -/
def putSerial (chars : List Byte) : List Byte :=
  put1 chars.length ++ (chars ++ List.replicate (16 - chars.length) 0#8)

/-- An entry of the inrush waiting list: socket × 2 + rail (R171). -/
def putWaiting (x : Socket × RailKind) : List Byte := put1 (x.1.val * 2 + railCode x.2)

/-- The mode and board fields of the status (R155, R33). -/
def statusBoard (s : State) : List Byte :=
  put1 s.mode.code ++ putNamed SafeCause.code s.safeCause ++ put1 (if s.ovenOk then 0 else 1)
    ++ put1 s.bulkLow ++ put1 s.board.attach.code ++ putNamed ReadFailure.code s.board.failReason
    ++ put1 (presenceByte
        [s.board.fields.isSome, s.supply.allowance.isSome, s.nextTick.isSome])
    ++ put2 (orFree .typeCode s (s.board.fields.map (·.typeCode.toNat)))
    ++ putSerial (match s.board.fields with
      | some x => x.serial
      | none => [])
    ++ put2 (orFree .population s (s.board.fields.map (·.population.toNat)))
    ++ putSerial (match s.board.last with
      | some x => x.serial
      | none => [])
    ++ put2 (orFree .lastPopulation s (s.board.last.map (·.population.toNat)))

/-- The scanner, rail and supply fields of the status (R46, R67, R99). -/
def statusSupply (s : State) : List Byte :=
  putSample s.scan.bulk ++ put1 s.scan.counter ++ putFlag s.scan.round.isSome
    ++ put1 s.risingCount
    ++ put1 s.waitingList.length
    ++ (s.waitingList.flatMap putWaiting ++ List.replicate (16 - s.waitingList.length) 0xFF#8)
    ++ put4 s.supply.railAllotment ++ put2 s.supply.grantSum
    ++ (match s.supply.allowance with
      | some v => put4s v
      | none => put4 (Config.absentNumber .allowance s.draws))
    ++ put2 s.supply.totalDraw ++ put2 s.supply.curtail ++ put1 s.supply.overload

/-- The bus, timer, log and clock fields of the status (R117, R146, R154). -/
def statusRun (s : State) : List Byte :=
  putNamed (fun (b : Burst) => b.slot.val) s.bus
    ++ put2 (orFree .busMask s (s.bus.map (·.mask.toNat)))
    ++ put4 (orFree .busTime s (s.bus.map (·.endAt - s.now)))
    ++ putTimer .timer0 s ++ putTimer .timer1 s
    ++ put1 s.log.length
    ++ put4 s.runClock ++ put1 (if s.clockRunning then 0 else 1)
    ++ put2 (orFree .nextTick s s.timeToTick)

/-- The GetBoardStatus layout after the result code (R171). -/
def statusBytes (s : State) : List Byte := statusBoard s ++ statusSupply s ++ statusRun s

/-- GetBoardStatus: accepted in every mode and attach state (R33). -/
def getBoardStatus (s : State) : State := (s.reply .ok (statusBytes s)).draw

/-- GET_BOARD_STATUS (R33). -/
def execGetBoardStatus (s : State) : Out := outsideReset s getBoardStatus

/-! ### Identify -/

/-- Identify: part code, restart cause, slot address, bit-rate code (R155, R170). -/
def identify (s : State) : State :=
  s.reply .ok
    (put2 Config.partCode ++ put1 s.restart.code ++ put1 s.link.address ++ put1 s.link.rate.code)

/-- IDENTIFY (R155). -/
def execIdentify (s : State) : Out := outsideReset s identify

end Sys2Proof.Machine
end

