-- ==== Sys2Proof/Machine/Link.lean ====
section
/-! DEFINITION. The Link Interface (12): receiving frames, the hand-over of requests, replies, and the
commands LINE_BYTE, GAP_TIMER_EXPIRY, REPLY_END. -/

namespace Sys2Proof.Machine

/-- The request kinds of the catalogue (R170). -/
inductive RequestKind where
  | identify | getBoardStatus | attach | setBoardField | getBoardField
  | setProfile | getProfile | setPolicy | getPolicy | setSocketParams | getSocket
  | setSlot | getSlot | sendSlot | abortSlot | setTimers
  | start | pause | resume | shutdown | quench | clear
  | startSocket | stopSocket | retrySocket | clearSocket
  | readFails | setAlarmEnables | readAlarms
  deriving DecidableEq, Repr

/-- The request kind of a kind byte (R170). -/
def requestKind (kind : Nat) : Option RequestKind :=
  match kind with
  | 0x01 => some .identify
  | 0x02 => some .getBoardStatus
  | 0x03 => some .attach
  | 0x04 => some .setBoardField
  | 0x05 => some .getBoardField
  | 0x10 => some .setProfile
  | 0x11 => some .getProfile
  | 0x12 => some .setPolicy
  | 0x13 => some .getPolicy
  | 0x14 => some .setSocketParams
  | 0x15 => some .getSocket
  | 0x20 => some .setSlot
  | 0x21 => some .getSlot
  | 0x22 => some .sendSlot
  | 0x23 => some .abortSlot
  | 0x24 => some .setTimers
  | 0x30 => some .start
  | 0x31 => some .pause
  | 0x32 => some .resume
  | 0x33 => some .shutdown
  | 0x34 => some .quench
  | 0x35 => some .clear
  | 0x40 => some .startSocket
  | 0x41 => some .stopSocket
  | 0x42 => some .retrySocket
  | 0x43 => some .clearSocket
  | 0x50 => some .readFails
  | 0x51 => some .setAlarmEnables
  | 0x52 => some .readAlarms
  | _ => none

/-- The payload length the catalogue gives a kind (R167, R170). -/
def payloadLength (p : List Byte) : RequestKind → Nat
  | .identify | .getBoardStatus | .attach | .getPolicy | .start | .pause | .resume | .shutdown
  | .quench | .clear => 0
  | .getProfile | .getSocket | .getSlot | .sendSlot | .abortSlot | .startSocket | .stopSocket
  | .retrySocket | .clearSocket | .readFails => 1
  | .getBoardField | .readAlarms => 2
  | .setPolicy | .setAlarmEnables => 4
  | .setBoardField => 6
  | .setTimers => 8
  | .setSlot => 12
  | .setSocketParams => 20
  | .setProfile => if p.length < 2 then 2 else 2 + 6 * byteAt p 1

/-- A byte of the payload. -/
def argByte (p : List Byte) (i : Nat) : Byte := p.getD i 0#8
/-- A two-byte field of the payload. -/
def argHalf (p : List Byte) (i : Nat) : Half := BitVec.ofNat 16 (halfAt p i)
/-- A four-byte field of the payload. -/
def argWord (p : List Byte) (i : Nat) : Word := BitVec.ofNat 32 (wordAt p i)

/-- The steps of a SetProfile payload from offset `i` on (R170). -/
def argSteps (p : List Byte) : Nat → Nat → List RawStep
  | 0, _ => []
  | n + 1, i =>
      ⟨argByte p i, argByte p (i + 1), argHalf p (i + 2), argHalf p (i + 4)⟩ :: argSteps p n (i + 6)

/-- The values of a SetSocketParams payload (R170). -/
def argParams (p : List Byte) : ParamValues where
  target := argHalf p 1
  ramp := argHalf p 3
  kp := argHalf p 5
  ki := argHalf p 7
  core := argHalf p 9
  aux := argHalf p 11
  upProfile := argByte p 13
  downProfile := argByte p 14
  edge := argByte p 15
  stressTarget := argWord p 16

/-- The values of a SetSlot payload (R170). -/
def argSlot (p : List Byte) : SlotValues where
  pattern := argByte p 1
  length := argHalf p 2
  mask := argHalf p 4
  dispatch := argByte p 6
  retry := argByte p 7
  edgeMin := argHalf p 8
  edgeMax := argHalf p 10

/-- The hand-over of an addressed request to the block that owns the state it concerns (R167). -/
def handOver (p : List Byte) (s : State) : RequestKind → State
  | .identify => identify s
  | .getBoardStatus => getBoardStatus s
  | .attach => attach s
  | .setBoardField => setBoardField (argByte p 0) (argByte p 1) (argWord p 2) s
  | .getBoardField => getBoardField (argByte p 0) (argByte p 1) s
  | .setProfile => setProfile (argByte p 0) (argSteps p (byteAt p 1) 2) s
  | .getProfile => getProfile (argByte p 0) s
  | .setPolicy => setPolicy (argByte p 0) (argByte p 1) (argByte p 2) (argByte p 3) s
  | .getPolicy => getPolicy s
  | .setSocketParams => setSocketParams (argByte p 0) (argParams p) s
  | .getSocket => getSocket (argByte p 0) s
  | .setSlot => setSlot (argByte p 0) (argSlot p) s
  | .getSlot => getSlot (argByte p 0) s
  | .sendSlot => sendSlot (argByte p 0) s
  | .abortSlot => abortSlot (argByte p 0) s
  | .setTimers => setTimers (argWord p 0) (argWord p 4) s
  | .start => start s
  | .pause => pause false s
  | .resume => resume false s
  | .shutdown => shutdown s
  | .quench => quench false s
  | .clear => clear s
  | .startSocket => startSocket (argByte p 0) s
  | .stopSocket => stopSocket (argByte p 0) s
  | .retrySocket => retrySocket (argByte p 0) s
  | .clearSocket => clearSocket (argByte p 0) s
  | .readFails => readFails (argByte p 0) s
  | .setAlarmEnables => setAlarmEnables (argHalf p 0) (argHalf p 2) s
  | .readAlarms => readAlarms (argHalf p 0) s

/-- A frame (R165): sync, address, payload length, kind, tag, payload, CRC-16. -/
def frame (address kind tag : Nat) (payload : List Byte) : List Byte :=
  let body := put1 address ++ put1 payload.length ++ put1 kind ++ put1 tag ++ payload
  0xC3#8 :: (body ++ put2 (crc16 body).toNat)

/-- The reply frame of an answer (R168). -/
def replyFrame (address kind tag : Nat) (a : Answer) : List Byte :=
  frame address (kind + 0x80) tag (put1 a.result.code ++ a.payload)

/-- The link waits for a frame (R166). -/
def hunt (l : Link) : Link := { l with rx := .hunt, buffer := [], gapDeadline := none }

/-- A frame is discarded and leaves no trace (R166). -/
def discardFrame (s : State) : State := { s with link := hunt s.link }

/-- A complete frame to the own address: REPLYING, the checks of R167, the hand-over, and the reply
(R167, R168). -/
def dispatchFrame (kind tag : Nat) (p : List Byte) (s : State) : State :=
  let taken :=
    match requestKind kind with
    | none => s.refuse .unknownKind
    | some k => if p.length ≠ payloadLength p k then s.refuse .length else handOver p s k
  let reply :=
    match taken.answer with
    | some a => replyFrame s.link.address kind tag a
    | none => []
  { taken with link := { hunt taken.link with rx := .replying, tx := reply } }

/-- A complete broadcast: Quench, Pause and Resume with no payload are acted on (R167). -/
def dispatchBroadcast (kind : Nat) (p : List Byte) (s : State) : State :=
  if p.length ≠ 0 then s
  else
    match requestKind kind with
    | some .quench => quench true s
    | some .pause => pause true s
    | some .resume => resume true s
    | _ => s

/-- The CRC-16 of a complete frame matches its last two bytes (R165, R166). -/
def crcMatches (f : List Byte) : Bool :=
  let n := f.length - 2
  (crc16 ((f.take n).drop 1)).toNat == halfAt f n

/-- A complete frame is checked and dispatched, or discarded (R166, R167). Address straps 0 give the part
no own address (R164). -/
def completeFrame (f : List Byte) (s : State) : State :=
  let address := byteAt f 1
  let p := (f.drop 5).take (byteAt f 2)
  if crcMatches f = false then discardFrame s
  else if address = 0 then dispatchBroadcast (byteAt f 3) p (discardFrame s)
  else if address = s.link.address then dispatchFrame (byteAt f 3) (byteAt f 4) p s
  else discardFrame s

/-- A byte taken in RECEIVING: it is appended and the gap timer is loaded; a length above 200 discards
the frame, and L + 7 bytes complete it (R166). -/
def receiveByte (b : Byte) (s : State) : State :=
  let f := s.link.buffer ++ [b]
  let longer : State :=
    { s with link :=
      { s.link with buffer := f, gapDeadline := some (s.now + Config.gapMicros) } }
  if 3 ≤ f.length ∧ 200 < byteAt f 2 then discardFrame s
  else if 3 ≤ f.length ∧ byteAt f 2 + 7 ≤ f.length then completeFrame f longer
  else longer

/-- A byte or a framing error arrives on the line (R166). -/
def takeLine (x : LineItem) (s : State) : State :=
  match s.link.rx, x with
  | .hunt, .byte b =>
      if b = 0xC3#8 then
        { s with link :=
          { s.link with
            rx := .receiving, buffer := [b], gapDeadline := some (s.now + Config.gapMicros) } }
      else s
  | .hunt, .framingError => s
  | .receiving, .byte b => receiveByte b s
  | .receiving, .framingError => discardFrame s
  | .replying, .byte _ => s
  | .replying, .framingError => s

/-- LINE_BYTE (R166). -/
def execLineByte (x : LineItem) (s : State) : Out := outsideReset s (takeLine x)

/-- The gap timer expires: a partial frame is discarded (R166). -/
def gapExpires (s : State) : State :=
  match s.link.rx with
  | .receiving => discardFrame s
  | .hunt | .replying => s

/-- GAP_TIMER_EXPIRY (R166). -/
def execGapTimerExpiry (s : State) : Out := outsideReset s gapExpires

/-- The last stop bit of a reply is sent: the driver goes off and the receive state is HUNT (R168). -/
def replyEnds (s : State) : State :=
  match s.link.rx with
  | .replying => { s with link := { hunt s.link with tx := [] } }
  | .hunt | .receiving => s

/-- REPLY_END (R168). -/
def execReplyEnd (s : State) : Out := outsideReset s replyEnds

end Sys2Proof.Machine
end

