-- ==== Sys2Proof/Machine/Dispatch.lean ====
section
/-! DEFINITION. One arm per command. -/

namespace Sys2Proof.Machine

/-- The command's effect on everything but the queue. -/
def exec (i : Instr) (s : State) : Host.Outcome State Fault Refusal :=
  match i with
  | .identify => Sys2Proof.Machine.execIdentify s
  | .getBoardStatus => Sys2Proof.Machine.execGetBoardStatus s
  | .attach => Sys2Proof.Machine.execAttach s
  | .setBoardField code index value => Sys2Proof.Machine.execSetBoardField code index value s
  | .getBoardField code index => Sys2Proof.Machine.execGetBoardField code index s
  | .setProfile profile steps => Sys2Proof.Machine.execSetProfile profile steps s
  | .getProfile profile => Sys2Proof.Machine.execGetProfile profile s
  | .setPolicy kind action threshold bin => Sys2Proof.Machine.execSetPolicy kind action threshold bin s
  | .getPolicy => Sys2Proof.Machine.execGetPolicy s
  | .setSocketParams socket values => Sys2Proof.Machine.execSetSocketParams socket values s
  | .getSocket socket => Sys2Proof.Machine.execGetSocket socket s
  | .setSlot slot values => Sys2Proof.Machine.execSetSlot slot values s
  | .getSlot slot => Sys2Proof.Machine.execGetSlot slot s
  | .sendSlot slot => Sys2Proof.Machine.execSendSlot slot s
  | .abortSlot slot => Sys2Proof.Machine.execAbortSlot slot s
  | .setTimers interval0 interval1 => Sys2Proof.Machine.execSetTimers interval0 interval1 s
  | .start => Sys2Proof.Machine.execStart s
  | .pause broadcast => Sys2Proof.Machine.execPause broadcast s
  | .resume broadcast => Sys2Proof.Machine.execResume broadcast s
  | .shutdown => Sys2Proof.Machine.execShutdown s
  | .quench broadcast => Sys2Proof.Machine.execQuench broadcast s
  | .clear => Sys2Proof.Machine.execClear s
  | .startSocket socket => Sys2Proof.Machine.execStartSocket socket s
  | .stopSocket socket => Sys2Proof.Machine.execStopSocket socket s
  | .retrySocket socket => Sys2Proof.Machine.execRetrySocket socket s
  | .clearSocket socket => Sys2Proof.Machine.execClearSocket socket s
  | .readFails n => Sys2Proof.Machine.execReadFails n s
  | .setAlarmEnables latch report => Sys2Proof.Machine.execSetAlarmEnables latch report s
  | .readAlarms clearSet => Sys2Proof.Machine.execReadAlarms clearSet s
  | .lineByte item => Sys2Proof.Machine.execLineByte item s
  | .gapTimerExpiry => Sys2Proof.Machine.execGapTimerExpiry s
  | .replyEnd => Sys2Proof.Machine.execReplyEnd s
  | .powerOnReset => Sys2Proof.Machine.execPowerOnReset s
  | .resetNAsserted => Sys2Proof.Machine.execResetNAsserted s
  | .clockLoss => Sys2Proof.Machine.execClockLoss s
  | .resetEnd pins => Sys2Proof.Machine.execResetEnd pins s
  | .brdPresentAsserted => Sys2Proof.Machine.execBrdPresentAsserted s
  | .brdPresentDeasserted => Sys2Proof.Machine.execBrdPresentDeasserted s
  | .attachReadSuccess image mon alm => Sys2Proof.Machine.execAttachReadSuccess image mon alm s
  | .attachReadFailure image => Sys2Proof.Machine.execAttachReadFailure image s
  | .attachNoAnswer => Sys2Proof.Machine.execAttachNoAnswer s
  | .attachTimeout => Sys2Proof.Machine.execAttachTimeout s
  | .roundBoundary => Sys2Proof.Machine.execRoundBoundary s
  | .channelArrival code => Sys2Proof.Machine.execChannelArrival code s
  | .riseEnd socket rail => Sys2Proof.Machine.execRiseEnd socket rail s
  | .fallEnd socket rail => Sys2Proof.Machine.execFallEnd socket rail s
  | .dwellEnd socket => Sys2Proof.Machine.execDwellEnd socket s
  | .rfltNLevel socket asserted => Sys2Proof.Machine.execRfltNLevel socket asserted s
  | .upProfileComplete socket => Sys2Proof.Machine.execUpProfileComplete socket s
  | .downProfileComplete socket => Sys2Proof.Machine.execDownProfileComplete socket s
  | .stopOrder order => Sys2Proof.Machine.execStopOrder order s
  | .carrierPeriodStart => Sys2Proof.Machine.execCarrierPeriodStart s
  | .dispatchTimerExpiry timer => Sys2Proof.Machine.execDispatchTimerExpiry timer s
  | .burstEnd dlvChk => Sys2Proof.Machine.execBurstEnd dlvChk s
  | .monitorEdge socket level => Sys2Proof.Machine.execMonitorEdge socket level s
  | .windowClose socket => Sys2Proof.Machine.execWindowClose socket s
  | .alarmLevelTaken socket level => Sys2Proof.Machine.execAlarmLevelTaken socket level s
  | .failTaken fail => Sys2Proof.Machine.execFailTaken fail s
  | .tick => Sys2Proof.Machine.execTick s
  | .holdExpiry socket => Sys2Proof.Machine.execHoldExpiry socket s
  | .ovenOkLevel asserted => Sys2Proof.Machine.execOvenOkLevel asserted s
  | .heaterOnTimeEnd socket => Sys2Proof.Machine.execHeaterOnTimeEnd socket s

end Sys2Proof.Machine
end

