-- ==== Sys2Proof/Machine/Time.lean ====
section
/-! DEFINITION. What happens with no command waiting (log 2, 3, 24): the part takes its own events that
are due, one a step; with none due, a microsecond passes. -/

namespace Sys2Proof.Machine

/-- A deadline that may be absent has come. -/
def reachedAt (now : Nat) : Option Nat → Bool
  | some d => decide (d ≤ now)
  | none => false

/-- One event if a condition holds. -/
def dueIf (c : Bool) (i : Instr) : List Instr := if c then [i] else []

/-- The ends of rise and fall due for a rail (R56, R57). -/
def dueRail (s : State) (k : Socket) (r : RailKind) : List Instr :=
  let x := s.rail k r
  dueIf (x.state == .rising && reachedAt s.now x.deadline) (.riseEnd k r)
    ++ dueIf (x.state == .falling && reachedAt s.now x.deadline) (.fallEnd k r)

/-- The profile completion due for a socket: its run has ended and the report is not yet taken
(R60, R62; log 6). -/
def dueReport (s : State) (k : Socket) : List Instr :=
  dueIf ((s.sock k).state == .starting && (s.run k).isNone) (.upProfileComplete k)
    ++ dueIf ((s.sock k).state == .stopping && (s.run k).isNone && bothOff k s)
      (.downProfileComplete k)

/-- The hold expiry due for a socket (R10, R11). -/
def dueExpiry (s : State) (k : Socket) : List Instr :=
  dueIf ((s.sock k).state == .held && (s.sock k).expiryDue && expiryMode s.mode) (.holdExpiry k)

/-- The events due for one socket. -/
def dueSocket (s : State) (k : Socket) : List Instr :=
  dueReport s k ++ dueExpiry s k ++ dueRail s k .core ++ dueRail s k .aux
    ++ dueIf (match (s.run k).map (·.cond) with
      | some c => reachedAt s.now (dwellDeadline c)
      | none => false) (.dwellEnd k)
    ++ dueIf (reachedAt s.now ((windowOf k s).map (·.closeAt))) (.windowClose k)
    ++ dueIf (reachedAt s.now (look s.heaterOff k)) (.heaterOnTimeEnd k)

/-- The events of the part's own that are due now. -/
def dueEvents (s : State) : List Instr :=
  s.fails.map .failTaken ++ s.orders.map .stopOrder ++ allSockets.flatMap (dueSocket s)
    ++ dueIf (timeOut s.now s.timers.timer0) (.dispatchTimerExpiry .timer0)
    ++ dueIf (timeOut s.now s.timers.timer1) (.dispatchTimerExpiry .timer1)
    ++ dueIf (reachedAt s.now s.nextTick) .tick
    ++ dueIf (reachedAt s.now s.link.gapDeadline) .gapTimerExpiry
    ++ dueIf (reachedAt s.now s.board.readDeadline) .attachTimeout
    ++ dueIf (decide (s.nextCarrier ≤ s.now)) .carrierPeriodStart
    ++ dueIf (decide (s.scan.nextBoundary ≤ s.now)) .roundBoundary

/-- Time waits for an input from the board side: a converter code or the level of DLV_CHK is due
(R37, R111; log 24). -/
def awaitsInput (s : State) : Bool :=
  reachedAt s.now (s.bus.map (·.endAt)) || reachedAt s.now (s.scan.round.map (·.codeAt))

/-- The event taken first among those due together: a free choice where there are several (log 3). -/
def chooseEvent (draws : Nat) (e : Instr) (rest : List Instr) : Instr :=
  match rest with
  | [] => e
  | _ :: _ => (e :: rest).getD (Config.pick draws % (rest.length + 1)) e

/-- The state in which the chosen event is taken: a free value has been drawn if there was a choice. -/
def drawnFor (rest : List Instr) (s : State) : State :=
  match rest with
  | [] => s
  | _ :: _ => s.draw

/-- A microsecond passes, unless time waits for an input (log 2, 24). -/
def passTime (s : State) : State :=
  if awaitsInput s then s else { s with now := s.now + 1 }

end Sys2Proof.Machine
end

