-- ==== Sys2Proof/Machine/Step.lean ====
section
/-! DEFINITION. One step: the command at the front of the queue is taken; on an empty queue the part goes
on by itself. -/

namespace Sys2Proof.Machine

/-- The step on an empty queue (log 2): nothing during a reset; else an event of the part's own that is
due; else a microsecond passes. -/
def stepAlone (s : State) : Host.Outcome State Fault Refusal :=
  match s.resetting with
  | some _ => .next s
  | none =>
      match dueEvents s with
      | [] => .next (passTime s)
      | e :: rest => exec (chooseEvent s.draws e rest) (drawnFor rest s)

/-- One step of the part. -/
def step (s : State) : Host.Outcome State Fault Refusal :=
  match s.pending with
  | c :: rest => exec c { s with pending := rest }
  | [] => stepAlone s

/-- The command a word spells is put at the front of the queue; the table gives no bits, so no word spells
one (log 29). -/
def State.withFetchWord (s : State) (nbits w : Nat) : State :=
  match decodeTableWord nbits w with
  | some c => { s with pending := c :: s.pending }
  | none => s

end Sys2Proof.Machine
end

