-- ==== Sys2Proof/Safety.lean ====
section
/-! DEFINITION. What a safe run keeps, in the terms the statements use: the invariants of the part, and the
words for "changes nothing but". -/

namespace Sys2Proof.Machine

/-- A mode in which sockets may run: RUN, PAUSE or SHUTDOWN. -/
def runningMode (m : Mode) : Bool :=
  match m with
  | .run | .pause | .shutdown => true
  | .config | .safe => false

/-- Sockets run in RUN, PAUSE and SHUTDOWN alone, and those modes hold in ATTACHED alone (R52, R85,
R41's note). -/
def RunOk (s : State) : Prop :=
  (∀ k, s.busy k = true → runningMode s.mode = true)
    ∧ (runningMode s.mode = true → s.board.attach = .attached)

/-- A rail is out of OFF, and a profile run present, only while its socket is STARTING, STRESSING or
STOPPING (R47, R52). -/
def RailsOk (s : State) : Prop :=
  ∀ k, s.busy k = false → bothOff k s = true ∧ s.run k = none

/-- Demand, duties and heater output are nonzero only while the socket is STARTING or STRESSING (R71). -/
def HeatOk (s : State) : Prop :=
  ∀ k, s.live k = false →
    (look s.heat k).demand = 0 ∧ look s.supply.applied k = 0 ∧ look s.active k = 0
      ∧ look s.heaterOn k = false

/-- A socket has an activity window only while it is STRESSING (R125). -/
def WindowOk (s : State) : Prop :=
  ∀ k, windowOf k s ≠ none → (s.sock k).state = .stressing

/-- At most one burst is on the bus, and its slot is the one ACTIVE slot (R107). -/
def BusOk (s : State) : Prop :=
  ∀ i, (s.slot i).state = .active ↔ s.bus.map (·.slot) = some i

/-- The fail log holds at most 64 entries, each with a repeat count from 1 to 255 (R142). -/
def LogOk (s : State) : Prop :=
  s.log.length ≤ 64 ∧ ∀ e ∈ s.log, 1 ≤ e.repeats ∧ e.repeats ≤ 255

/-- A policy entry in its ranges; OVERCURRENT and OVERTEMP in the stricter form (R133). -/
def PolicyOk (s : State) : Prop :=
  ∀ f, let e := look s.policy (kindIndex f)
    1 ≤ e.threshold ∧ e.threshold ≤ 255 ∧ 2 ≤ e.bin ∧ e.bin ≤ 15
      ∧ (f = .overcurrent ∨ f = .overtemp → e.action ≠ .count ∧ e.threshold = 1)

/-- A step from `s` answers `t`. -/
def StepsTo (s t : State) : Prop := step s = .next t

/-- Everything but the answer of a request stands. -/
def OnlyAnswers (s t : State) : Prop := t = { s with answer := t.answer, draws := t.draws }

/-- The request is refused with a result code alone (R168), and nothing else changes. -/
def Refuses (c : Instr) (s : State) (r : Result) : Prop :=
  exec c s = .next { s with answer := some ⟨r, []⟩ }

/-- The walk of R50: the rails that are up after the steps, or none if a VERIFY finds its rail down. -/
def walk : Bool → Bool → List Step → Option (Bool × Bool)
  | core, aux, [] => some (core, aux)
  | core, aux, x :: xs =>
      match x with
      | .raise .core => walk true aux xs
      | .raise .aux => walk core true xs
      | .drop .core => walk false aux xs
      | .drop .aux => walk core false xs
      | .dwell _ => walk core aux xs
      | .verify .core _ _ => if core then walk core aux xs else none
      | .verify .aux _ _ => if aux then walk core aux xs else none

/-- How many of a socket's fails the log holds, repeats included (R143). -/
def recorded (k : Socket) (log : List LogEntry) : Nat :=
  log.foldr (fun e n => (if e.socket = k then e.repeats else 0) + n) 0

/-- The sum of a socket's cumulative counts over the eight kinds (R143). -/
def cumulativeSum (r : SocketRecord) : Nat := r.cumulative.toList.sum

/-- The number of rails in RISING stays within the inrush limit in force (R55). -/
def RisingOk (s : State) : Prop := s.risingCount ≤ s.board.host.inrushLimit

/-! ### Outputs (R163) -/

/-- Every output is held off. -/
def OutputsOff (s : State) : Prop :=
  (∀ k r, s.railEnable k r = false ∧ s.setpointCode k r = 0) ∧ (∀ k, s.heaterOutput k = false)
    ∧ s.selects = none ∧ s.storeOutput = none ∧ s.twoWire = none ∧ s.senseSelect = none
    ∧ s.attn = false ∧ s.driverOn = false

/-- The scanner without a round and without a sample (R41). -/
def emptied (c : Scanner) : Scanner :=
  { c with
    round := none
    temp := tab16 fun _ => none
    current := tab16 fun _ => ⟨none, none⟩
    bulk := none }

/-! ### Rails and runs (R47 to R62) -/

/-- `s` with a rail in a new state; the report of the change clears the rail's measured mark (R47, R88). -/
def railEnters (k : Socket) (r : RailKind) (x : Rail) (s : State) : State :=
  { s with
    rails := put s.rails k ((look s.rails k).set r x)
    supply :=
      { s.supply with
        measured := put s.supply.measured k ((look s.supply.measured k).set r false) } }

/-- A rail that begins to fall, for the fall time in force (R57). -/
def fallingRail (r : RailKind) (s : State) : Rail :=
  ⟨.falling, some (s.now + 1000 * (s.brd.rail.get r).fallMs), 0⟩

/-- `s` with a rail dropped, short of the grant decision (R57). -/
def railDropped (k : Socket) (r : RailKind) (s : State) : State :=
  match (s.rail k r).state with
  | .on | .rising => railEnters k r (fallingRail r s) s
  | .waitGrant => railEnters k r ⟨.off, none, 0⟩ s
  | .falling | .off => s

/-- `s` with the run of socket `k`, which is `x`, at step `i` and waiting for `c` (R52). -/
def runStands (k : Socket) (x : Run) (i : Nat) (c : StepCondition) (s : State) : State :=
  { s with runs := put s.runs k (some { x with step := i, cond := c }) }

/-- A rail of `k` that R61 stops when an UP run is abandoned: one that waits or rises. -/
def stopsRising (k : Socket) (r : RailKind) (s : State) : Bool :=
  match (s.rail k r).state with
  | .waitGrant | .rising => true
  | .off | .on | .falling => false

/-- `s` with the UP run of socket `k` abandoned (R61): a waiting rail is OFF, a RISING one falls, ON and
FALLING ones stand, and the run is absent; a grant decision follows if a rail left RISING or the list. -/
def abandoned (k : Socket) (s : State) : State :=
  let core := if stopsRising k .core s then railDropped k .core s else s
  let both := if stopsRising k .aux s then railDropped k .aux core else core
  let ended := { both with runs := put both.runs k none }
  if stopsRising k .core s || stopsRising k .aux s then grantDecision ended else ended

/-- `s` with a run of a profile started at its first step (R52); `runSteps` begins the step. -/
def runStarted (k : Socket) (d : RunDirection) (p : ProfileId) (s : State) : State :=
  runSteps (look s.profiles p) 1 k { s with runs := put s.runs k (some ⟨d, p, 1, .sample⟩) }

/-- What the Rail Sequencer makes of `s` when socket `k` is stopped (R7, R61): the UP run of a STARTING
socket is abandoned, then the down-profile starts. -/
def downStarted (k : Socket) (s : State) : State :=
  runStarted k .down (s.sock k).params.downProfile
    (if (s.sock k).state = .starting ∧ s.run k ≠ none then abandoned k s else s)

/-- What a grant decision may change at a socket that is not concerned: a waiting rail rises, and its run
shows RISING (R53, R55). -/
def GrantedAtMost (j : Socket) (s t : State) : Prop :=
  (∀ q, t.rail j q = s.rail j q
      ∨ ((s.rail j q).state = .waitGrant ∧ (t.rail j q).state = .rising))
    ∧ (t.run j = s.run j
      ∨ ∃ x, s.run j = some x ∧ t.run j = some { x with cond := .rising })

/-- The run of `k` stands at its first step, which raises rail `q`: the rail waits for its grant, or it has
it and rises (R53, R54, R55). -/
def RaisesFirst (k : Socket) (p : ProfileId) (q : RailKind) (t : State) : Prop :=
  (t.run k = some ⟨.up, p, 1, .waitGrant⟩ ∧ (t.rail k q).state = .waitGrant)
    ∨ (t.run k = some ⟨.up, p, 1, .rising⟩ ∧ (t.rail k q).state = .rising)

/-! ### Entry to STARTING (R4) -/

/-- The record after an entry to STARTING: what R4 removes is removed, the episode counts are 0. -/
def startingRecord (r : SocketRecord) : SocketRecord :=
  { r with
    state := .starting
    stopDest := none
    holdReason := none
    holdTime := none
    expiryDue := false
    lastPass := none
    episode := tab8 fun _ => 0 }

/-- The control state after an entry to STARTING (R82). -/
def startingHeat (s : State) (k : Socket) : HeatControl where
  effective := some ((s.validTemp k).getD (s.sock k).params.target)
  integrator := 0
  invalid := 0
  runaway := 0
  demand := 0

/-- `t` is `s` after socket `k`, whose record was made `r`, entered STARTING (R4): record, control state and
tick result of `k` alone, and the start of the up-profile that `r` names, which stands at its first step where
that raises a rail of a socket with both rails OFF. -/
def EntersStarting (k : Socket) (r : SocketRecord) (s t : State) : Prop :=
  t.sock k = startingRecord r
    ∧ (∀ j, j ≠ k → t.sock j = s.sock j)
    ∧ t.heat = put s.heat k (startingHeat s k)
    ∧ t.tickResult = put s.tickResult k none
    ∧ (∀ x, t.run k = some x → x.direction = .up ∧ x.profile = r.params.upProfile)
    ∧ (∀ q rest, look s.profiles r.params.upProfile = .raise q :: rest → bothOff k s = true →
        RaisesFirst k r.params.upProfile q t)
    ∧ (∀ j, j ≠ k → GrantedAtMost j s t)
    ∧ t = { runStarted k .up r.params.upProfile { s with
          sockets := put s.sockets k (startingRecord r)
          heat := put s.heat k (startingHeat s k)
          tickResult := put s.tickResult k none } with
        answer := t.answer }
    ∧ t = { s with
        sockets := t.sockets
        heat := t.heat
        tickResult := t.tickResult
        rails := t.rails
        runs := t.runs
        fails := t.fails
        answer := t.answer
        supply :=
          { s.supply with measured := t.supply.measured, grantSum := t.supply.grantSum } }

/-! ### Stop orders (R7) -/

/-- The stop destination of an order. -/
def destinationOf : OrderDest → StopDest
  | .toIdle => .idle
  | .toDone => .done
  | .toPolicyHold _ | .toShedHold => .held
  | .toRetired _ => .retired

/-- The record of a running socket after an order: its destination, and the reason and kind the order
names (R7). -/
def stoppedRecord (d : OrderDest) (r : SocketRecord) : SocketRecord :=
  { r with
    state := .stopping
    stopDest := some (destinationOf d)
    holdReason := match d with
      | .toPolicyHold _ => some .policy
      | .toShedHold => some .shed
      | .toIdle | .toDone | .toRetired _ => r.holdReason
    holdKind := match d with
      | .toPolicyHold f => some f
      | .toShedHold | .toIdle | .toDone | .toRetired _ => r.holdKind
    retireKind := match d with
      | .toRetired f => some f
      | .toPolicyHold _ | .toShedHold | .toIdle | .toDone => r.retireKind }

/-- `t` is `s` after running socket `k` was stopped by an order (R7): its record, its heat and its window,
the abandonment of its up-profile and the start of its down-profile; of the other sockets a waiting rail may
have been granted. -/
def Stops (k : Socket) (d : OrderDest) (s t : State) : Prop :=
  t.sock k = stoppedRecord d (s.sock k)
    ∧ (∀ j, j ≠ k → t.sock j = s.sock j)
    ∧ look t.heat k = { look s.heat k with demand := 0 }
    ∧ look t.supply.applied k = 0 ∧ look t.active k = 0
    ∧ look t.heaterOn k = false ∧ look t.heaterOff k = none
    ∧ look t.mon k = { look s.mon k with window := none }
    ∧ (∀ x, t.run k = some x →
        x.direction = .down ∧ x.profile = (s.sock k).params.downProfile)
    ∧ t.rails = (downStarted k s).rails ∧ t.runs = (downStarted k s).runs
    ∧ t.fails = (downStarted k s).fails
    ∧ t.supply.measured = (downStarted k s).supply.measured
    ∧ t.supply.grantSum = (downStarted k s).supply.grantSum
    ∧ (∀ j, j ≠ k → GrantedAtMost j s t)
    ∧ (∀ j, j ≠ k → look t.heat j = look s.heat j ∧ look t.mon j = look s.mon j
        ∧ look t.active j = look s.active j ∧ look t.heaterOn j = look s.heaterOn j
        ∧ look t.heaterOff j = look s.heaterOff j
        ∧ look t.supply.applied j = look s.supply.applied j)

/-- What a stop order leaves as it stands: everything but sockets, control states, duties, heater
outputs, windows and the Rail Sequencer's state. -/
def StopFrame (s t : State) : Prop :=
  t = { s with
    sockets := t.sockets
    heat := t.heat
    active := t.active
    heaterOn := t.heaterOn
    heaterOff := t.heaterOff
    mon := t.mon
    rails := t.rails
    runs := t.runs
    fails := t.fails
    orders := t.orders
    answer := t.answer
    supply :=
      { s.supply with
        measured := t.supply.measured, grantSum := t.supply.grantSum, applied := t.supply.applied } }

/-! ### Supply allotment (R89 to R96) -/

/-- What a rail adds to the rail allotment (R89): nothing in OFF and WAIT_GRANT, the declared maximum power in
RISING and until it is measured in its state, then its rail power. -/
def railShare (s : State) (k : Socket) (r : RailKind) : Nat :=
  let declared := (s.brd.rail.get r).maxPower
  let current := match (look s.scan.current k).get r with
    | some x => (x.value.getD 0).toNat
    | none => 0
  match (s.rail k r).state, (look s.supply.measured k).get r with
  | .off, _ | .waitGrant, _ => 0
  | .rising, _ => declared
  | .on, true | .falling, true => s.effSetpoint k r * current / 10000
  | .on, false | .falling, false => declared

/-- `k` is the socket to shed in `s` (R96): of the STRESSING sockets the one whose rails add the most, the
lowest index among equals. -/
def Sheds (k : Socket) (s : State) : Prop :=
  let share (j : Socket) : Nat := railShare s j .core + railShare s j .aux
  (s.sock k).state = .stressing
    ∧ (∀ j, (s.sock j).state = .stressing → share j ≤ share k)
    ∧ ∀ j, j < k → (s.sock j).state = .stressing → share j < share k

/-- `t` is `s` after a round end (R94): the allotment, then the grant decision, and the overload check of R95,
which orders the socket of R96 to HELD(SHED). The order may be taken before the grant decision, or be in
flight after it (log 10). -/
def RoundEnds (s t : State) : Prop :=
  let a := allot s
  let counted (n : Nat) : State := { a with supply := { a.supply with overload := n } }
  (a.supply.railAllotment ≤ s.bulkLimit → t = grantDecision (counted 0))
    ∧ (s.bulkLimit < a.supply.railAllotment → s.supply.overload = 0 →
        t = grantDecision (counted 1))
    ∧ (s.bulkLimit < a.supply.railAllotment → s.supply.overload ≠ 0 →
        ((∀ k, (s.sock k).state ≠ .stressing) → t = grantDecision (counted 0))
        ∧ ∀ k, Sheds k s →
          let drawn : State := { counted 0 with draws := s.draws + 1 }
          t = { grantDecision drawn with orders := s.orders ++ [⟨k, .toShedHold⟩] }
            ∨ ∃ v, Stops k .toShedHold drawn v ∧ StopFrame drawn v ∧ v.orders = s.orders
              ∧ v.answer = s.answer ∧ t = grantDecision v)

/-! ### The bus arbiter (R107 to R110) -/

/-- A socket that a start of the slot reaches: one of its mask that is STRESSING (R109). -/
def burstReaches (s : State) (i : SlotId) (k : Socket) : Bool :=
  inSet (s.slot i).mask k && decide ((s.sock k).state = .stressing)

/-- The slot waits and a start of it reaches no socket, so that a decision skips it (R109). -/
def Skippable (s : State) (i : SlotId) : Prop :=
  (s.slot i).state = .pending ∧ ∀ k, burstReaches s i k = false

/-- The slot waits and a start of it reaches a socket. -/
def Startable (s : State) (i : SlotId) : Prop :=
  (s.slot i).state = .pending ∧ ∃ k, burstReaches s i k = true

/-- A slot whose start is skipped (R109). -/
def skippedSlot (x : Slot) : Slot :=
  { x with
    state := .idle
    skipped := satAdd 65535 x.skipped 1
    last := if 0 < x.resends then .failed else x.last }

/-- `t` is `s` after a decision of the bus arbiter (R108): in RUN with the bus free it starts the
lowest-numbered PENDING slot that reaches a socket, and skips the PENDING slots before it; else nothing
happens. -/
def Arbitrated (s t : State) : Prop :=
  (s.mode ≠ .run ∨ s.bus ≠ none → t = s)
    ∧ (s.mode = .run → s.bus = none →
      (∀ i, Startable s i → (∀ j, j < i → ¬Startable s j) →
        let x := s.slot i
        let endAt := s.now + (x.length * s.brd.vectorPeriod + 999) / 1000
        let note : Contribution := ⟨i, x.edgeMin, x.edgeMax⟩
        t.bus = some ⟨i, setOf (burstReaches s i), endAt⟩
        ∧ t.storeCommand = some (.play x.pattern x.length)
        ∧ t.slot i = { x with state := .active, sent := satAdd 65535 x.sent 1 }
        ∧ (∀ j, j < i → (Skippable s j → t.slot j = skippedSlot (s.slot j))
            ∧ (¬Skippable s j → t.slot j = s.slot j))
        ∧ (∀ j, i < j → t.slot j = s.slot j)
        ∧ (∀ k, look t.mon k = if burstReaches s i k = true then
              { look s.mon k with window := match (look s.mon k).window with
                | none => some ⟨0, 0, 0, 0, some note, endAt + 1000 * s.brd.latency⟩
                | some w => some
                    { w with waiting := some note, closeAt := endAt + 1000 * s.brd.latency } }
            else look s.mon k)
        ∧ t = { s with
            slots := t.slots, bus := t.bus, storeCommand := t.storeCommand, mon := t.mon })
      ∧ ((∀ i, ¬Startable s i) →
        (∀ j, (Skippable s j → t.slot j = skippedSlot (s.slot j))
          ∧ (¬Skippable s j → t.slot j = s.slot j))
        ∧ t = { s with slots := t.slots }))

/-! ### SAFE (R159) -/

/-- A socket record after SAFE entry (R19), given the bin of its retire kind and the hold time in
force. -/
def safeResolved (bin hold : Nat) (r : SocketRecord) : SocketRecord :=
  match r.state, r.stopDest with
  | .starting, _ | .stressing, _ =>
      { r with state := .held, stopDest := none, holdReason := some .safe, holdTime := none }
  | .stopping, some .idle | .stopping, none =>
      { r with state := .idle, stopDest := none, holdReason := none, holdTime := none, bin := 0 }
  | .stopping, some .done =>
      { r with state := .done, stopDest := none, holdReason := none, holdTime := none, bin := 1 }
  | .stopping, some .retired =>
      { r with state := .retired, stopDest := none, holdReason := none, holdTime := none, bin := bin }
  | .stopping, some .held =>
      { r with state := .held, stopDest := none, holdTime := some hold, expiryDue := false, bin := 0 }
  | .empty, _ | .idle, _ | .held, _ | .retired, _ | .done, _ => r

/-- `t` is `s` after an entry to SAFE with a cause (R159): every block's part. -/
def EntersSafe (c : SafeCause) (s t : State) : Prop :=
  t.mode = .safe ∧ t.safeCause = some c ∧ t.nextTick = none
    ∧ (∀ k, look t.rails k = ⟨.off, .off⟩ ∧ t.run k = none)
    ∧ t.supply = .reset
    ∧ (∀ k, look t.active k = 0 ∧ look t.heaterOn k = false ∧ look t.heaterOff k = none)
    ∧ t.bus = none ∧ t.timers = ⟨.stopped, .stopped⟩
    ∧ (∀ i, t.slot i
        = if (s.slot i).state = .idle then s.slot i
          else { s.slot i with state := .idle, last := .aborted })
    ∧ (∀ k, t.sock k = safeResolved (retireBin k s) s.board.host.holdTime (s.sock k))
    ∧ (∀ k, look t.heat k
        = if s.live k then { look s.heat k with demand := 0 } else look s.heat k)
    ∧ (∀ k, look t.mon k
        = if s.live k then { look s.mon k with window := none } else look s.mon k)
    ∧ t = { s with
        mode := .safe
        safeCause := some c
        nextTick := none
        sockets := t.sockets
        rails := t.rails
        runs := t.runs
        heat := t.heat
        active := t.active
        heaterOn := t.heaterOn
        heaterOff := t.heaterOff
        supply := t.supply
        slots := t.slots
        timers := t.timers
        bus := none
        storeCommand := if s.bus = none then s.storeCommand else some .stop
        mon := t.mon }

/-! ### Profiles (R51) -/

/-- A step that check 4 of R51 refuses. -/
def BadStep (x : RawStep) : Prop :=
  3 < x.kind.toNat
    ∨ (x.kind.toNat ≠ 2 ∧ 1 < x.rail.toNat)
    ∨ (x.kind.toNat = 2 ∧ x.first.toNat = 0)
    ∨ (x.kind.toNat = 3 ∧ x.second.toNat < x.first.toNat)

/-- The step a sound SetProfile step stands for (R49, R170). -/
def stepMeant (x : RawStep) : Step :=
  let r : RailKind := if x.rail.toNat = 0 then .core else .aux
  if x.kind.toNat = 0 then .raise r
  else if x.kind.toNat = 1 then .drop r
  else if x.kind.toNat = 2 then .dwell x.first.toNat
  else .verify r x.first.toNat x.second.toNat

/-! ### Host-set fields (R30) -/

/-- A host-set field of one value that SetBoardField writes: its code, its range and its reading. -/
structure HostField where
  code : Byte
  low : Int
  high : Int
  read : HostFields → Int

/-- The table of R30, weight table and timer intervals apart, with the codes of R170. -/
def hostFields : List HostField :=
  [⟨0x10#8, 1, 8, fun h => h.inrushLimit⟩, ⟨0x11#8, 16, 800, fun h => h.runawayGuard⟩,
   ⟨0x12#8, 1, 255, fun h => h.runawayDwell⟩, ⟨0x13#8, 8, 320, fun h => h.stressBand⟩,
   ⟨0x14#8, -640, 3200, fun h => h.refTemp⟩, ⟨0x15#8, 16, 320, fun h => h.weightStep⟩,
   ⟨0x17#8, 0, 65535, fun h => h.activityAge⟩, ⟨0x18#8, 0, 65535, fun h => h.holdTime⟩,
   ⟨0x19#8, 0, 7, fun h => h.retryLimit⟩]

/-! ### The link (R165 to R168) -/

/-- The command that a request of a kind with a payload is (R167, R170). -/
def commandOf (p : List Byte) : RequestKind → Instr
  | .identify => .identify
  | .getBoardStatus => .getBoardStatus
  | .attach => .attach
  | .setBoardField => .setBoardField (argByte p 0) (argByte p 1) (argWord p 2)
  | .getBoardField => .getBoardField (argByte p 0) (argByte p 1)
  | .setProfile => .setProfile (argByte p 0) (argSteps p (byteAt p 1) 2)
  | .getProfile => .getProfile (argByte p 0)
  | .setPolicy => .setPolicy (argByte p 0) (argByte p 1) (argByte p 2) (argByte p 3)
  | .getPolicy => .getPolicy
  | .setSocketParams => .setSocketParams (argByte p 0) (argParams p)
  | .getSocket => .getSocket (argByte p 0)
  | .setSlot => .setSlot (argByte p 0) (argSlot p)
  | .getSlot => .getSlot (argByte p 0)
  | .sendSlot => .sendSlot (argByte p 0)
  | .abortSlot => .abortSlot (argByte p 0)
  | .setTimers => .setTimers (argWord p 0) (argWord p 4)
  | .start => .start
  | .pause => .pause false
  | .resume => .resume false
  | .shutdown => .shutdown
  | .quench => .quench false
  | .clear => .clear
  | .startSocket => .startSocket (argByte p 0)
  | .stopSocket => .stopSocket (argByte p 0)
  | .retrySocket => .retrySocket (argByte p 0)
  | .clearSocket => .clearSocket (argByte p 0)
  | .readFails => .readFails (argByte p 0)
  | .setAlarmEnables => .setAlarmEnables (argHalf p 0) (argHalf p 2)
  | .readAlarms => .readAlarms (argHalf p 0)

/-- The link with a reply going out (R168). -/
def Link.sending (l : Link) (tx : List Byte) : Link :=
  { l with rx := .replying, buffer := [], gapDeadline := none, tx := tx }

/-- The link waiting for a frame (R166). -/
def Link.hunting (l : Link) : Link := { l with rx := .hunt, buffer := [], gapDeadline := none }

/-! ### Layouts (R170, R171) -/

/-- A part of a reply: bytes that the spec gives, or a number of bytes that it leaves open (log 12). -/
inductive Part where
  | sent (bytes : List Byte)
  | unstated (width : Nat)

/-- The payload is the parts, one after the other. -/
def Laid : List Part → List Byte → Prop
  | [], x => x = []
  | .sent b :: rest, x => ∃ y, x = b ++ y ∧ Laid rest y
  | .unstated n :: rest, x => ∃ a y, x = a ++ y ∧ a.length = n ∧ Laid rest y

/-- A field of `width` bytes that is sent as 0 when it is absent (R171). -/
def zeroPart (width : Nat) : Option (List Byte) → Part
  | some b => .sent b
  | none => .sent (List.replicate width 0#8)

/-- A field of `width` bytes for whose absence the spec names no bytes (log 12). -/
def openPart (width : Nat) : Option (List Byte) → Part
  | some b => .sent b
  | none => .unstated width

/-- A value of a named set in one byte, 0xFF when it is absent (R170). -/
def codePart (x : Option Nat) : Part := .sent (put1 (x.getD 0xFF))

/-- The milliseconds to a deadline, rounded up. -/
def msLeft (s : State) (deadline : Nat) : Nat := (deadline - s.now + 999) / 1000

/-- A sample record, six bytes (R171). -/
def samplePart : Option Sample → Part
  | none => .sent [0xFF#8, 0#8, 0#8, 0#8, 0#8, 0#8]
  | some x => .sent (put1 x.validity.code ++ put2 x.code ++ put2s (x.value.getD 0) ++ put1 x.round)

/-- The number of a set bit. -/
def bit (n : Nat) (b : Bool) : Nat := if b = true then 2 ^ n else 0

/-- A rail of the GetSocket reply, ten bytes (R171). -/
def railParts (k : Socket) (r : RailKind) (s : State) : List Part :=
  let x := s.rail k r
  let power : Option Nat := ((look s.scan.current k).get r).map fun y =>
    s.effSetpoint k r * (y.value.getD 0).toNat / 10000
  [.sent (put1 x.state.code), openPart 2 (x.deadline.map fun d => put2 (msLeft s d)),
   .sent (put2 (s.effSetpoint k r) ++ put2 ((look s.supply.contribution k).get r)
     ++ put1 (bit 0 ((look s.supply.measured k).get r) + bit 1 power.isSome)),
   zeroPart 2 (power.map put2)]

/-- The profile run of the GetSocket reply, six bytes (R171). -/
def runParts (s : State) : Option Run → List Part
  | none => [.sent (List.replicate 6 0#8)]
  | some x =>
      [.sent (put1 x.direction.code ++ put1 x.profile.val ++ put1 x.step ++ put1 x.cond.code),
       openPart 2 (match x.cond with
         | .dwell d => some (put2 (msLeft s d))
         | .waitOff | .waitGrant | .rising | .falling | .sample => none)]

/-- The activity window of the GetSocket reply, fifteen bytes, 0 where there is none (R131, R171;
log 32). The expected bounds count the pending contribution in (R118). -/
def windowPart (s : State) : Option Window → Part
  | none => .sent (List.replicate 15 0#8)
  | some w =>
      .sent (put2 w.edges
        ++ put2 (satAdd 65535 w.confirmedMin ((w.waiting.map (·.minimum)).getD 0))
        ++ put2 (satAdd 65535 w.confirmedMax ((w.waiting.map (·.maximum)).getD 0))
        ++ put2 w.confirmedMin ++ put2 w.confirmedMax ++ put2 w.confirmed
        ++ put1 ((w.waiting.map (·.slot.val)).getD 0xFF) ++ put2 (msLeft s w.closeAt))

/-- The band of a QUALIFIED tick result (R171). -/
def bandPart : Option TickResult → Part
  | some (.qualified band) => .sent (put1 band.val)
  | some .noTemp | some .outOfBand | some .rails | some .noActivity | none => .unstated 1

/-- Offsets 1 to 91 of the GetSocket reply: record, host parameters, samples (R171). -/
def socketHeadParts (k : Socket) (s : State) : List Part :=
  let r := s.sock k
  let p := r.params
  let m := look s.mon k
  let c := look s.heat k
  let stamp (x : FailStamp) : List Byte := put1 (kindIndex x.kind).val ++ put4 x.time
  -- 1 to 8
  [.sent (put1 k.val ++ put1 r.state.code), codePart (r.stopDest.map StopDest.code),
   codePart (r.holdReason.map HoldReason.code), codePart (r.holdKind.map fun f => (kindIndex f).val),
   codePart (r.retireKind.map fun f => (kindIndex f).val),
   .sent (put1 r.retries ++ put1 r.bin),
   -- 9 to 11
   .sent (put1 (bit 0 r.holdTime.isSome + bit 1 r.firstFail.isSome + bit 2 r.lastFail.isSome
     + bit 3 r.lastPass.isSome + bit 4 c.effective.isSome + bit 5 m.window.isSome
     + bit 6 (s.run k).isSome)),
   zeroPart 2 (r.holdTime.map put2),
   -- 12 to 58
   .sent (List.ofFn fun i : Fin 8 => put1 (look r.episode i)).flatten,
   .sent (List.ofFn fun i : Fin 8 => put2 (look r.cumulative i)).flatten,
   zeroPart 5 (r.firstFail.map stamp), zeroPart 5 (r.lastFail.map stamp),
   .sent (put1 r.unlogged ++ put4 r.credit ++ put4 r.stressTarget),
   zeroPart 4 (r.lastPass.map put4),
   -- 59 and 60
   codePart ((look s.tickResult k).map TickResult.code), bandPart (look s.tickResult k),
   -- 61 to 91
   .sent (put2s p.target ++ put1 p.ramp ++ put1 p.kp ++ put1 p.ki ++ put2 p.setpoint.core
     ++ put2 p.setpoint.aux ++ put1 p.upProfile.val ++ put1 p.downProfile.val ++ put1 p.edge.code
     ++ put1 (bit 0 p.latchEnable + bit 1 p.reportEnable)),
   samplePart (look s.scan.temp k), samplePart (look s.scan.current k).core,
   samplePart (look s.scan.current k).aux]

/-- Offsets 118 to 150 of the GetSocket reply: heater and monitor (R171). -/
def socketTailParts (k : Socket) (s : State) : List Part :=
  let m := look s.mon k
  let c := look s.heat k
  [zeroPart 2 (c.effective.map put2s),
   .sent (put4 c.integrator ++ put1 c.invalid ++ put1 c.runaway ++ put2 c.demand
     ++ put2 (look s.supply.applied k) ++ put2 (look s.active k)
     ++ put1 (bit 0 (look s.supply.curtailed k))),
   codePart (m.level.map levelCode), windowPart s m.window, .sent (put1 (bit 0 m.latch)),
   codePart (m.alarm.map AlarmLevel.code)]

/-- The GetSocket reply after its result code, offset by offset (R171): the rails and the run stand at offsets
92 to 117. -/
def socketLayout (k : Socket) (s : State) : List Part :=
  socketHeadParts k s ++ railParts k .core s ++ railParts k .aux s ++ runParts s (s.run k)
    ++ socketTailParts k s

/-- A serial: its length, then sixteen bytes padded with 0 (R171). -/
def serialPart (chars : List Byte) : Part :=
  .sent (put1 chars.length ++ chars ++ List.replicate (16 - chars.length) 0#8)

/-- The rails in a state, in socket order, CORE before AUX. -/
def railsIn (x : RailState) (s : State) : List (Socket × RailKind) :=
  (allSockets.flatMap fun k => [(k, .core), (k, .aux)]).filter fun e =>
    decide ((s.rail e.1 e.2).state = x)

/-- A dispatch timer of the status: interval, status, time remaining in ms (R170, R171). -/
def timerParts (x : TimerId) (s : State) : List Part :=
  [.sent (put4 (intervalOf x s) ++ put1 (timerOf x s).code),
   openPart 4 (match timerOf x s with
     | .running d => some (put4 (msLeft s d))
     | .frozen left => some (put4 ((left + 999) / 1000))
     | .stopped => none)]

/-- The mode and board fields of the GetBoardStatus reply (R171). -/
def statusBoardParts (s : State) : List Part :=
  [.sent (put1 s.mode.code), codePart (s.safeCause.map SafeCause.code),
   .sent (put1 (bit 0 (!s.ovenOk)) ++ put1 s.bulkLow ++ put1 s.board.attach.code),
   codePart (s.board.failReason.map ReadFailure.code),
   .sent (put1 (bit 0 s.board.fields.isSome + bit 1 s.supply.allowance.isSome
     + bit 2 s.nextTick.isSome)),
   openPart 2 (s.board.fields.map fun x => put2 x.typeCode.toNat),
   serialPart ((s.board.fields.map (·.serial)).getD []),
   openPart 2 (s.board.fields.map fun x => put2 x.population.toNat),
   serialPart ((s.board.last.map (·.serial)).getD []),
   openPart 2 (s.board.last.map fun x => put2 x.population.toNat)]

/-- The scanner, rail and supply fields of the GetBoardStatus reply (R171). -/
def statusSupplyParts (s : State) : List Part :=
  let waiting := railsIn .waitGrant s
  [samplePart s.scan.bulk,
   .sent (put1 s.scan.counter ++ put1 (bit 0 s.scan.round.isSome)
     ++ put1 (railsIn .rising s).length),
   .sent (put1 waiting.length ++ waiting.flatMap (fun e => put1 (e.1.val * 2 + railCode e.2))
     ++ List.replicate (16 - waiting.length) 0xFF#8),
   .sent (put4 s.supply.railAllotment ++ put2 s.supply.grantSum),
   openPart 4 (s.supply.allowance.map put4s),
   .sent (put2 s.supply.totalDraw ++ put2 s.supply.curtail ++ put1 s.supply.overload)]

/-- The bus, timer, log and clock fields of the GetBoardStatus reply (R171). -/
def statusRunParts (s : State) : List Part :=
  [codePart (s.bus.map (·.slot.val)), openPart 2 (s.bus.map fun b => put2 b.mask.toNat),
   openPart 4 (s.bus.map fun b => put4 (b.endAt - s.now))]
  ++ timerParts .timer0 s ++ timerParts .timer1 s
  ++ [.sent (put1 s.log.length ++ put4 s.runClock ++ put1 (bit 0 s.nextTick.isNone)),
   openPart 2 (s.nextTick.map fun d => put2 (max 1 (msLeft s d)))]

/-- The GetBoardStatus reply after its result code, field by field (R171). -/
def statusLayout (s : State) : List Part :=
  statusBoardParts s ++ statusSupplyParts s ++ statusRunParts s

/-! ### The identity memory (R172) -/

/-- The bytes of one rail type's fields. -/
def railImage (r : RailLimits) : List Byte :=
  put2 r.spMin ++ put2 r.spMax ++ put2 r.fullScale ++ put2 r.trip ++ put2 r.maxPower ++ put2 r.riseMs
    ++ put2 r.fallMs

/-- The bytes of a board record before its CRC (R172). -/
def recordImage (x : BoardRecord) : List Byte :=
  put1 x.layoutVersion ++ put1 (95 + x.serial.length) ++ put2 x.typeCode.toNat ++ x.serial
    ++ put2 x.population.toNat
    ++ x.heaterRating.toList.flatMap put2
    ++ x.calibration.toList.flatMap (fun c => [BitVec.ofInt 8 c])
    ++ put2s x.absLimit ++ railImage x.rail.core ++ railImage x.rail.aux
    ++ put2 x.vectorPeriod ++ put2 x.latency ++ put1 x.glitchWidth ++ put2 x.alarmHigh.toNat
    ++ put2 x.bulkLimit ++ put2 x.bulkMinimum

/-- The identity memory that holds a board record: its bytes, then their CRC-16 (R22, R172). -/
def imageOf (x : BoardRecord) : List Byte := recordImage x ++ put2 (crc16 (recordImage x)).toNat

end Sys2Proof.Machine
end

