-- ==== Sys2Proof/Certificates/Slice0/Obligations.lean ====
section
/-! DEFINITION. The statements for the provers, in the order of OBLIGATIONS.json. A command acts outside
resets (log 14), which is the one condition on the state that all of them share. -/

open Sys2Proof Sys2Proof.Machine

/-! ### One step -/

/-- A step with a command waiting takes the command at the front of the queue: it is `exec` of that command
on the state with the queue's rest. -/
def Obligations.StepTakesTheFrontCommand : Prop :=
  ∀ (c : Instr) (rest : List Instr) (s : State), s.pending = c :: rest →
    step s = exec c { s with pending := rest }

/-- The model's choice (log 2, 3, 24): with no command waiting the part takes one of its own events that
are due; with none due a microsecond passes, unless time waits for an input; in a reset nothing
happens. -/
def Obligations.AnIdlePartTakesADueEventOrLetsTimePass : Prop :=
  ∀ s : State, s.pending = [] →
    (s.resetting ≠ none → step s = .next s)
    ∧ (s.resetting = none → dueEvents s = [] → awaitsInput s = false →
        step s = .next { s with now := s.now + 1 })
    ∧ (s.resetting = none → dueEvents s = [] → awaitsInput s = true → step s = .next s)
    ∧ (s.resetting = none → ∀ e, dueEvents s = [e] → step s = exec e s)
    ∧ (s.resetting = none → 1 < (dueEvents s).length →
        ∃ e ∈ dueEvents s, step s = exec e { s with draws := s.draws + 1 })

/-- Every command has an effect: `exec` answers a next state for every command and every state, and leaves
the queue as it is. No rule of the spec stops the part; a command whose event cannot arise leaves the
state as it is (the model's choice, log 13). -/
def Obligations.EveryCommandCompletesAndKeepsTheQueue : Prop :=
  ∀ (c : Instr) (s : State), ∃ t, exec c s = .next t ∧ t.pending = s.pending

/-! ### Restart (R163) -/

/-- Each reset cause is noted among those met, the scanner stops, and every output is held off: rails,
heaters, stimulus bus, two-wire line, sense multiplexer, ATTN, the link's driver; from then to RESET_END every other command
leaves the state as it is (log 14). -/
def Obligations.ResetCausesHoldEveryOutputOff : Prop :=
  ∀ s : State,
    let met : ResetCauses := s.resetting.getD ⟨false, false, false⟩
    let after (c : ResetCauses) : State := { s with resetting := some c, scan := emptied s.scan }
    exec .powerOnReset s = .next (after { met with powerOn := true })
    ∧ exec .resetNAsserted s = .next (after { met with line := true })
    ∧ exec .clockLoss s = .next (after { met with clockLoss := true })
    ∧ (s.resetting ≠ none → OutputsOff s)
    ∧ (s.resetting ≠ none → ∀ c, c ≠ .powerOnReset → c ≠ .resetNAsserted → c ≠ .clockLoss →
        (∀ pins, c ≠ .resetEnd pins) → exec c s = .next s)

/-- RESET_END: every block takes its after-reset value, the lines and straps are read, nothing in flight is
left, and the restart cause is POWER_ON, LINE or CLOCK_LOSS by what was met; outside a reset there is nothing
to end (log 13, 14). The model's own fields take the values of log 2 (`now`, deadlines), 5 (messages in
flight), 20 (`answer`) and 27 (`storeCommand`). -/
def Obligations.ResetEndGivesTheAfterResetState : Prop :=
  ∀ (pins : Pins) (s : State),
    (s.resetting = none → exec (.resetEnd pins) s = .next s)
    ∧ ∀ met : ResetCauses, s.resetting = some met →
      ∃ t, exec (.resetEnd pins) s = .next t
        ∧ t.resetting = none
        ∧ t.restart = (if met.powerOn then .powerOn else if met.line then .line else .clockLoss)
        ∧ t.mode = .config ∧ t.safeCause = none ∧ t.ovenOk = pins.ovenOk ∧ t.bulkLow = 0
        ∧ (∀ k, t.sock k = .reset ∧ look t.rails k = ⟨.off, .off⟩ ∧ t.run k = none
            ∧ look t.rflt k = inSet pins.rflt k ∧ look t.heat k = .reset ∧ look t.active k = 0
            ∧ look t.heaterOn k = false ∧ look t.mon k = .reset ∧ look t.tickResult k = none)
        ∧ t.board.fields = none ∧ t.board.overrides = .none ∧ t.board.host = .reset
        ∧ t.board.attach = (if pins.brdPresent then .present else .detached)
        ∧ t.board.failReason = none ∧ t.board.last = none
        ∧ t.scan = .reset ∧ t.profiles = resetProfiles ∧ t.supply = .reset
        ∧ (∀ i, t.slot i = .reset) ∧ t.timers = ⟨.stopped, .stopped⟩ ∧ t.bus = none
        ∧ t.policy = resetPolicy ∧ t.log = [] ∧ t.runClock = 0 ∧ t.clockRunning = false
        ∧ t.nextTick = none ∧ t.now = 0 ∧ t.nextCarrier = 10000 ∧ (∀ k, look t.heaterOff k = none)
        ∧ t.storeCommand = none ∧ t.board.readDeadline = none ∧ t.link.gapDeadline = none
        ∧ t.fails = [] ∧ t.orders = [] ∧ t.answer = none
        ∧ t.link.rx = .hunt ∧ t.link.buffer = [] ∧ t.link.tx = []
        ∧ t.link.address = pins.address.toNat
        ∧ t.link.rate = (if pins.rate = 1#2 then .r460800 else if pins.rate = 2#2 then .r1000000
            else .r115200)
        ∧ t.pending = s.pending

/-- The state after reset meets every invariant stated below. -/
def Obligations.AfterResetEveryInvariantHolds : Prop :=
  RunOk State.reset ∧ RailsOk State.reset ∧ HeatOk State.reset ∧ WindowOk State.reset
    ∧ BusOk State.reset ∧ LogOk State.reset ∧ PolicyOk State.reset ∧ RisingOk State.reset

/-! ### The slot link (R164 to R168) -/

/-- The table of R166, up to the dispatch of a frame whose CRC matches, and the end of a reply (R168). Where
R166 has a dash (the gap timer in HUNT and REPLYING), and at the end of a reply outside REPLYING, nothing
changes: the model's choice (log 13). The end of a reply is a command of its own (the model's choice,
log 22). -/
def Obligations.TheLinkTakesBytesByReceiveState : Prop :=
  ∀ (b : Byte) (s : State), s.resetting = none →
    (s.link.rx = .hunt →
      exec (.lineByte (.byte b)) s
          = .next (if b = 0xC3#8 then
              { s with link :=
                { s.link with
                  rx := .receiving, buffer := [b], gapDeadline := some (s.now + 2000) } }
            else s)
        ∧ exec (.lineByte .framingError) s = .next s
        ∧ exec .gapTimerExpiry s = .next s ∧ exec .replyEnd s = .next s)
    ∧ (s.link.rx = .receiving →
        exec (.lineByte .framingError) s = .next { s with link := s.link.hunting }
        ∧ exec .gapTimerExpiry s = .next { s with link := s.link.hunting }
        ∧ exec .replyEnd s = .next s
        ∧ (3 ≤ (s.link.buffer ++ [b]).length → 200 < byteAt (s.link.buffer ++ [b]) 2 →
            exec (.lineByte (.byte b)) s = .next { s with link := s.link.hunting })
        ∧ ((s.link.buffer ++ [b]).length < 3
              ∨ (byteAt (s.link.buffer ++ [b]) 2 ≤ 200
                ∧ (s.link.buffer ++ [b]).length < byteAt (s.link.buffer ++ [b]) 2 + 7) →
            exec (.lineByte (.byte b)) s = .next { s with link :=
              { s.link with
                buffer := s.link.buffer ++ [b], gapDeadline := some (s.now + 2000) } })
        ∧ ∀ n, n = byteAt (s.link.buffer ++ [b]) 2 → n ≤ 200 →
            (s.link.buffer ++ [b]).length = n + 7 →
            (crc16 (((s.link.buffer ++ [b]).take (n + 5)).drop 1)).toNat
              ≠ halfAt (s.link.buffer ++ [b]) (n + 5) →
            exec (.lineByte (.byte b)) s = .next { s with link := s.link.hunting })
    ∧ (s.link.rx = .replying →
        exec (.lineByte (.byte b)) s = .next s ∧ exec (.lineByte .framingError) s = .next s
        ∧ exec .gapTimerExpiry s = .next s
        ∧ exec .replyEnd s = .next { s with link := { s.link.hunting with tx := [] } })

/-- The last byte of a frame: a frame for another slot is discarded; a broadcast Quench, Pause or Resume
without payload is that broadcast command and every other broadcast is ignored, none is answered; a frame
to the own address is answered with UNKNOWN_KIND, with LENGTH, or with what its command answers. The model's
choices: the reply is built from the field `answer` (log 20), the buffer is emptied at the dispatch (log 33),
and the reply kind of a request kind from 0x80 up is the sum modulo 256 (log 34). -/
def Obligations.CompleteFramesAreDispatched : Prop :=
  ∀ (a kind tag : Nat) (p : List Byte) (b : Byte) (s : State), p.length ≤ 200 → a < 256 → kind < 256 →
    tag < 256 → s.resetting = none → s.link.rx = .receiving →
    s.link.buffer ++ [b] = frame a kind tag p →
    let whole : State := { s with link :=
      { s.link with buffer := frame a kind tag p, gapDeadline := some (s.now + 2000) } }
    let waiting : State := { s with link := s.link.hunting }
    (a ≠ 0 → a ≠ s.link.address → exec (.lineByte (.byte b)) s = .next waiting)
    ∧ (a = 0 → exec (.lineByte (.byte b)) s
        = if kind = 0x34 ∧ p = [] then exec (.quench true) waiting
          else if kind = 0x31 ∧ p = [] then exec (.pause true) waiting
          else if kind = 0x32 ∧ p = [] then exec (.resume true) waiting
          else .next waiting)
    ∧ (a ≠ 0 → a = s.link.address →
        (requestKind kind = none →
          exec (.lineByte (.byte b)) s = .next { s with
            answer := some ⟨.unknownKind, []⟩
            link := s.link.sending (frame a (kind + 0x80) tag [0x04#8]) })
        ∧ ∀ k, requestKind kind = some k →
          (p.length ≠ payloadLength p k →
            exec (.lineByte (.byte b)) s = .next { s with
              answer := some ⟨.length, []⟩
              link := s.link.sending (frame a (kind + 0x80) tag [0x05#8]) })
          ∧ (p.length = payloadLength p k →
              ∃ u x, exec (commandOf p k) whole = .next u ∧ u.answer = some x
                ∧ exec (.lineByte (.byte b)) s = .next { u with
                    link := u.link.sending
                      (frame a (kind + 0x80) tag (put1 x.result.code ++ x.payload)) }))

/-- The reading requests change nothing but the answer, and the answer is the layout of R170 and R171 field
by field: Identify gives part code, restart cause, address and bit rate; GetSocket, GetBoardStatus, GetSlot
and GetPolicy every field of theirs (151 and 122 bytes with the result code for the first two);
GetBoardField the value on the board, the override and the value in force. The model's choices: codes from 0
(log 18), a free value for a number that is absent without a stated coding (log 12), ms rounded up where no
rule says how (log 17), the fields of an absent window (log 32), presence bit 2 and the value in force of a
board-derived field that cannot be overridden (log 35), a time to the next tick of at least 1 ms (log 36). -/
def Obligations.ReadRequestsOnlyAnswer : Prop :=
  ∀ (n index : Byte) (s : State), s.resetting = none →
    exec .identify s = .next { s with
      answer := some ⟨.ok, [0x16#8, 0x24#8] ++ put1 s.restart.code ++ put1 s.link.address
        ++ put1 s.link.rate.code⟩ }
    ∧ (∃ t x, exec .getBoardStatus s = .next t ∧ OnlyAnswers s t ∧ t.answer = some ⟨.ok, x⟩
        ∧ ((∀ y, s.board.fields = some y → y.serial.length ≤ 16) →
            (∀ y, s.board.last = some y → y.serial.length ≤ 16) →
            s.waitingList.length ≤ 16 → x.length = 121)
        ∧ Laid (statusLayout s) x)
    ∧ (∃ t x, exec .getPolicy s = .next t ∧ OnlyAnswers s t ∧ t.answer = some ⟨.ok, x⟩
        ∧ x.length = 24
        ∧ x = (List.ofFn fun i : Fin 8 => put1 (look s.policy i).action.code
            ++ put1 (look s.policy i).threshold ++ put1 (look s.policy i).bin).flatten)
    ∧ (∀ k, socketOf n = some k → (s.sock k).state ≠ .empty →
        ∃ t x, exec (.getSocket n) s = .next t ∧ OnlyAnswers s t ∧ t.answer = some ⟨.ok, x⟩
          ∧ x.length = 150 ∧ Laid (socketLayout k s) x)
    ∧ (∀ k, socketOf n = some k → (s.sock k).state = .empty →
        Refuses (.getSocket n) s .emptySocket)
    ∧ (socketOf n = none → Refuses (.getSocket n) s .range)
    ∧ (∀ i, slotOf n = some i → ∃ t x, exec (.getSlot n) s = .next t ∧ OnlyAnswers s t
        ∧ t.answer = some ⟨.ok, x⟩ ∧ x = slotBytes i (s.slot i) ∧ x.length = 24)
    ∧ (slotOf n = none → Refuses (.getSlot n) s .range)
    ∧ (∀ f, fieldOf n index = some f →
        ∃ t y z w, exec (.getBoardField n index) s = .next t ∧ OnlyAnswers s t
          ∧ t.answer = some ⟨.ok, [n, index] ++ put1
              ((if (s.board.fields.bind fun x => boardValue x f).isSome then 1 else 0)
                + (if (overrideValue s.board.overrides f).isSome then 2 else 0)
                + (if (inForce s f).isSome then 4 else 0)) ++ y ++ z ++ w⟩
          ∧ y.length = 4 ∧ z.length = 4 ∧ w.length = 4
          ∧ (∀ v, (s.board.fields.bind fun x => boardValue x f) = some v → y = put4s v)
          ∧ (∀ v, overrideValue s.board.overrides f = some v → z = put4s v)
          ∧ (∀ v, inForce s f = some v → w = put4s v))
    ∧ (fieldOf n index = none → Refuses (.getBoardField n index) s .range)

/-! ### The board table (R21 to R33) -/

/-- Attach: its checks in order; on acceptance ATTACHING, the failure reason gone, the answer at once and
the 150 ms limit set; overrides, fields and socket records stand. In ATTACHED the scan, the supply
account, the bulk-low counter and the filtered levels are reset besides. -/
def Obligations.AttachChecksAndStartsTheRead : Prop :=
  ∀ s : State, s.resetting = none →
    let reading : BoardTable :=
      { s.board with
        attach := .attaching, failReason := none, readDeadline := some (s.now + 150000) }
    (s.mode ≠ .config → Refuses .attach s .wrongMode)
    ∧ (s.mode = .config → s.board.attach = .attaching → Refuses .attach s .busy)
    ∧ (s.mode = .config → s.board.attach = .detached → Refuses .attach s .notAttached)
    ∧ (s.mode = .config → s.board.attach = .present ∨ s.board.attach = .failed →
        exec .attach s = .next { s with board := reading, answer := some ⟨.ok, [2#8]⟩ })
    ∧ (s.mode = .config → s.board.attach = .attached →
        exec .attach s = .next { s with
          board := reading
          answer := some ⟨.ok, [2#8]⟩
          scan := emptied s.scan
          supply := .reset
          bulkLow := 0
          mon := tab16 fun k => { look s.mon k with level := none, alarm := none } })

/-- A successful read installs the record (R27): a new board clears the fail log, the socket records but
for host parameters, control states, tick results and alarm latches; the same board keeps them. Lines of
fitted positions are taken without an edge (R119). The stress target goes with a new board (log 15); the
image comes with the command (log 19). -/
def Obligations.AReadRecordIsInstalled : Prop :=
  ∀ (image : List Byte) (mon alm : Half) (x : BoardRecord) (s : State), s.resetting = none →
    s.board.attach = .attaching → readImage image = .good x →
    ∃ t, exec (.attachReadSuccess image mon alm) s = .next t
      ∧ t.board = ⟨some x, .none, s.board.host, .attached, none, some ⟨x.serial, x.population⟩, none⟩
      ∧ (s.board.last ≠ some ⟨x.serial, x.population⟩ →
          t.log = [] ∧ ∀ k,
            t.sock k = { SocketRecord.reset with
              state := if inSet x.population k then .idle else .empty
              params := { (s.sock k).params with
                target := min x.absLimit (s.sock k).params.target
                setpoint :=
                  ⟨clampNat x.rail.core.spMin x.rail.core.spMax (s.sock k).params.setpoint.core,
                   clampNat x.rail.aux.spMin x.rail.aux.spMax (s.sock k).params.setpoint.aux⟩ } }
            ∧ look t.heat k = .reset ∧ look t.tickResult k = none ∧ (look t.mon k).latch = false)
      ∧ (s.board.last = some ⟨x.serial, x.population⟩ →
          t.log = s.log ∧ t.sockets = s.sockets ∧ t.heat = s.heat ∧ t.tickResult = s.tickResult
            ∧ ∀ k, (look t.mon k).latch = (look s.mon k).latch)
      ∧ (∀ k, (look t.mon k).window = (look s.mon k).window
          ∧ (inSet x.population k = false →
              (look t.mon k).level = none ∧ (look t.mon k).alarm = none)
          ∧ (inSet x.population k = true →
              (look t.mon k).level = some (if inSet mon k then .high else .low)
              ∧ (look t.mon k).alarm
                  = some (if inSet alm k = inSet x.alarmHigh k then .active else .inactive)))
      ∧ t = { s with
          board := t.board, log := t.log, sockets := t.sockets, heat := t.heat,
          tickResult := t.tickResult, mon := t.mon }

/-- A read that ends with a failure reason (R28), the order of the checks that gives the reason (R26), and the
two-wire line while the read goes on: the part reads device 0x50 from offset 0 (R26; shown as device and offset,
log 38). The model's choices: the image comes with the command (log 19), an end of a read outside ATTACHING
changes nothing (log 13), and a read may end by the limit before its time (log 4). -/
def Obligations.AFailedReadEmptiesTheBoard : Prop :=
  ∀ (m : List Byte) (s : State), s.resetting = none →
    let failed (r : ReadFailure) : State := { s with board :=
      { s.board with
        attach := .failed, failReason := some r, fields := none, overrides := .none,
        readDeadline := none } }
    (s.board.attach = .attaching →
      exec .attachNoAnswer s = .next (failed .noAnswer)
      ∧ exec .attachTimeout s = .next (failed .noAnswer)
      ∧ ∀ r, readImage m = .bad r → r ≠ .noAnswer →
          exec (.attachReadFailure m) s = .next (failed r))
    ∧ (s.board.attach ≠ .attaching →
        exec .attachNoAnswer s = .next s ∧ exec .attachTimeout s = .next s
        ∧ exec (.attachReadFailure m) s = .next s)
    ∧ (s.board.attach = .attaching → s.twoWire = some ⟨0x50#7, 0⟩)
    ∧ (s.board.attach ≠ .attaching → s.twoWire = none)
    ∧ (2 ≤ m.length → byteAt m 1 < 96 ∨ 111 < byteAt m 1 →
        readImage m = .bad (if byteAt m 0 = 1 then .badField else .badVersion))
    ∧ (96 ≤ byteAt m 1 → byteAt m 1 ≤ 111 → byteAt m 1 + 2 ≤ m.length →
        ((crc16 (m.take (byteAt m 1))).toNat ≠ halfAt m (byteAt m 1) → readImage m = .bad .badCheck)
        ∧ ((crc16 (m.take (byteAt m 1))).toNat = halfAt m (byteAt m 1) → byteAt m 0 ≠ 1 →
            readImage m = .bad .badVersion)
        ∧ ((crc16 (m.take (byteAt m 1))).toNat = halfAt m (byteAt m 1) → byteAt m 0 = 1 →
            readImage m = if fieldsInRange (parseRecord m) then .good (parseRecord m)
              else .bad .badField))

/-- Every sound board record, laid out in the identity memory with its CRC, reads back as itself (R22,
R26, R172): no byte of the layout is dropped or misplaced. -/
def Obligations.ABoardRecordReadsBack : Prop :=
  ∀ x : BoardRecord, x.layoutVersion = 1 → 1 ≤ x.serial.length → x.serial.length ≤ 16 →
    fieldsInRange x = true → (∀ k, -128 ≤ look x.calibration k ∧ look x.calibration k ≤ 127) →
    readImage (imageOf x) = .good x

/-- BRD_PRESENT (R23, R24): a board is seated; a board is removed, with SAFE by cause DETACH in the running
modes and no change of mode otherwise; the scanner, the supply account, the bulk-low counter and the filtered
levels go with the board (R41, R98, R159, R119). A level already taken changes nothing (the model's choice,
log 13). -/
def Obligations.BoardPresenceMovesTheAttachState : Prop :=
  ∀ s : State, s.resetting = none →
    let gone : BoardTable :=
      { s.board with
        attach := .detached, fields := none, overrides := .none, failReason := none,
        readDeadline := none }
    exec .brdPresentAsserted s = .next (if s.board.attach = .detached then
        { s with board := { s.board with attach := .present } } else s)
    ∧ (s.board.attach = .detached → exec .brdPresentDeasserted s = .next s)
    ∧ (s.board.attach ≠ .detached → runningMode s.mode = false → s.board.attach ≠ .attached →
        exec .brdPresentDeasserted s = .next { s with board := gone })
    ∧ (s.board.attach = .attached → runningMode s.mode = false →
        exec .brdPresentDeasserted s = .next { s with
          board := gone
          scan := emptied s.scan
          supply := .reset
          bulkLow := 0
          mon := tab16 fun k => { look s.mon k with level := none, alarm := none } })
    ∧ (s.board.attach = .attached → runningMode s.mode = true →
        ∃ t, exec .brdPresentDeasserted s = .next t ∧ EntersSafe .detach
          { s with
            board := gone
            scan := emptied s.scan
            supply := .reset
            bulkLow := 0
            mon := tab16 fun k => { look s.mon k with level := none, alarm := none } } t)

/-- SetBoardField (R30): its checks in order, and every host-set field written with a value of its range
and no other field changed. -/
def Obligations.HostFieldsAreWrittenInRange : Prop :=
  ∀ (code index : Byte) (v : Word) (s : State), s.resetting = none →
    (s.mode ≠ .config → Refuses (.setBoardField code index v) s .wrongMode)
    ∧ (s.mode = .config → s.board.attach = .attaching → Refuses (.setBoardField code index v) s .busy)
    ∧ (s.mode = .config → s.board.attach ≠ .attaching →
        (fieldOf code index = none ∨ 0x1A ≤ code.toNat →
          Refuses (.setBoardField code index v) s .range)
        ∧ (∀ f ∈ hostFields, code = f.code →
            (v.toInt < f.low ∨ f.high < v.toInt → Refuses (.setBoardField code index v) s .range)
            ∧ (f.low ≤ v.toInt → v.toInt ≤ f.high →
                ∃ h, exec (.setBoardField code index v) s = .next { s with
                    board := { s.board with host := h }
                    answer := some ⟨.ok, [code, index] ++ put4s v.toInt⟩ }
                  ∧ f.read h = v.toInt
                  ∧ (∀ g ∈ hostFields, g.code ≠ code → g.read h = g.read s.board.host)
                  ∧ h.weights = s.board.host.weights ∧ h.interval0 = s.board.host.interval0
                  ∧ h.interval1 = s.board.host.interval1))
        ∧ (code = 0x16#8 → ∀ i, weightOf index = some i →
            (v.toInt < 0 ∨ 65535 < v.toInt → Refuses (.setBoardField code index v) s .range)
            ∧ (0 ≤ v.toInt → v.toInt ≤ 65535 →
                exec (.setBoardField code index v) s = .next { s with
                  board := { s.board with host :=
                    { s.board.host with weights := put s.board.host.weights i v.toInt.toNat } }
                  answer := some ⟨.ok, [code, index] ++ put4s v.toInt⟩ })))

/-- Overrides (R31, R32, R2): refused outside ATTACHED and below the floor; else the value in force is the
tighter of the two, never looser than the board's, and a range that narrows clamps the setpoints of its
rail type. -/
def Obligations.OverridesTighten : Prop :=
  ∀ (index : Byte) (v : Word) (s : State), s.resetting = none → s.mode = .config →
    let setTo (k : Socket) (r : RailKind) (mV : Nat) : HostParams :=
      { (s.sock k).params with setpoint := (s.sock k).params.setpoint.set r mV }
    (s.board.attach ≠ .attached → s.board.attach ≠ .attaching → ∀ code : Byte, 1 ≤ code.toNat →
      code.toNat ≤ 8 → Refuses (.setBoardField code index v) s .notAttached)
    ∧ ∀ x : BoardRecord, s.board.attach = .attached → s.board.fields = some x →
      (∀ r : RailKind,
        let code : Byte := match r with | .core => 1#8 | .aux => 2#8
        (v.toInt < 1 → Refuses (.setBoardField code index v) s .range)
        ∧ (1 ≤ v.toInt → ∃ t, exec (.setBoardField code index v) s = .next t
            ∧ t.trip r = min v.toInt.toNat (x.rail.get r).trip
            ∧ t.answer = some ⟨.ok, [code, index] ++ put4s (t.trip r)⟩
            ∧ t = { s with answer := t.answer, board := { s.board with overrides :=
                { s.board.overrides with
                  trip := s.board.overrides.trip.set r (some (t.trip r)) } } }))
      ∧ (v.toInt < 800 → Refuses (.setBoardField 7#8 index v) s .range)
      ∧ (800 ≤ v.toInt → ∃ t, exec (.setBoardField 7#8 index v) s = .next t
          ∧ t.absLimit = min v.toInt x.absLimit
          ∧ t.answer = some ⟨.ok, [7#8, index] ++ put4s t.absLimit⟩
          ∧ t = { s with answer := t.answer, board := { s.board with overrides :=
              { s.board.overrides with absLimit := some t.absLimit } } })
      ∧ (v.toInt < 1 → Refuses (.setBoardField 8#8 index v) s .range)
      ∧ (1 ≤ v.toInt → ∃ t, exec (.setBoardField 8#8 index v) s = .next t
          ∧ t.bulkLimit = min v.toInt.toNat x.bulkLimit
          ∧ t.answer = some ⟨.ok, [8#8, index] ++ put4s t.bulkLimit⟩
          ∧ t = { s with answer := t.answer, board := { s.board with overrides :=
              { s.board.overrides with bulkLimit := some t.bulkLimit } } })
      ∧ (∀ r : RailKind,
          let code : Byte := match r with | .core => 3#8 | .aux => 4#8
          (v.toInt < 0 → Refuses (.setBoardField code index v) s .range)
          ∧ (0 ≤ v.toInt → ∃ t, exec (.setBoardField code index v) s = .next t
              ∧ t.spMax r
                  = max (s.spMin r) (min (v.toInt.toNat / 5 * 5) (x.rail.get r).spMax)
              ∧ t.answer = some ⟨.ok, [code, index] ++ put4s (t.spMax r)⟩
              ∧ (∀ k, t.sock k = { s.sock k with
                  params := setTo k r (if t.spMax r < s.spMax r then
                      clampNat (s.spMin r) (t.spMax r) ((s.sock k).params.setpoint.get r)
                    else (s.sock k).params.setpoint.get r) })
              ∧ t = { s with
                  answer := t.answer
                  sockets := t.sockets
                  board := { s.board with overrides :=
                    { s.board.overrides with
                      spMax := s.board.overrides.spMax.set r (some (t.spMax r)) } } }))
      ∧ (∀ r : RailKind,
          let code : Byte := match r with | .core => 5#8 | .aux => 6#8
          (v.toInt < 0 → Refuses (.setBoardField code index v) s .range)
          ∧ (0 ≤ v.toInt → ∃ t, exec (.setBoardField code index v) s = .next t
              ∧ t.spMin r
                  = min (s.spMax r) (max (v.toInt.toNat / 5 * 5) (x.rail.get r).spMin)
              ∧ t.answer = some ⟨.ok, [code, index] ++ put4s (t.spMin r)⟩
              ∧ (∀ k, t.sock k = { s.sock k with
                  params := setTo k r (if s.spMin r < t.spMin r then
                      clampNat (t.spMin r) (s.spMax r) ((s.sock k).params.setpoint.get r)
                    else (s.sock k).params.setpoint.get r) })
              ∧ t = { s with
                  answer := t.answer
                  sockets := t.sockets
                  board := { s.board with overrides :=
                    { s.board.overrides with
                      spMin := s.board.overrides.spMin.set r (some (t.spMin r)) } } }))

/-! ### Rail sequencing (R47 to R66) -/

/-- SetProfile's checks in order and its effect; GetProfile; the reply of both (R51). -/
def Obligations.SetProfileWritesAProfileWhole : Prop :=
  ∀ (n : Byte) (steps : List RawStep) (s : State), s.resetting = none →
    let reply (p : ProfileId) (xs : List Step) : Option Answer :=
      some ⟨.ok, put1 p.val ++ put1 xs.length ++ xs.flatMap putStep ++ putFlag (upValid xs)
        ++ putFlag (downValid xs)⟩
    (s.mode ≠ .config → Refuses (.setProfile n steps) s .wrongMode)
    ∧ (s.mode = .config → 3 < n.toNat → Refuses (.setProfile n steps) s .range)
    ∧ (s.mode = .config → steps.length = 0 ∨ 8 < steps.length →
        Refuses (.setProfile n steps) s .range)
    ∧ (s.mode = .config → (∃ x ∈ steps, BadStep x) → Refuses (.setProfile n steps) s .range)
    ∧ (s.mode = .config → ∀ p : ProfileId, p.val = n.toNat →
        1 ≤ steps.length → steps.length ≤ 8 →
        (∀ x ∈ steps, ¬BadStep x) →
        exec (.setProfile n steps) s = .next { s with
          profiles := put s.profiles p (steps.map stepMeant)
          answer := reply p (steps.map stepMeant) })
    ∧ (3 < n.toNat → Refuses (.getProfile n) s .range)
    ∧ (∀ p : ProfileId, p.val = n.toNat →
        exec (.getProfile n) s = .next { s with answer := reply p (look s.profiles p) })

/-- A profile is valid as an up-profile exactly when its walk from both rails OFF leaves both up and every
VERIFY finds its rail up; as a down-profile exactly when it holds no RAISE (R50). -/
def Obligations.UpValidIsTheWalk : Prop :=
  ∀ steps : List Step,
    (upValid steps = true ↔ walk false false steps = some (true, true))
    ∧ (downValid steps = true ↔ ∀ r, Step.raise r ∉ steps)

/-- A grant decision looks at the head of the inrush waiting list alone (R54, R55, R56, R90): the head is
granted while fewer rails than the inrush limit rise and the budget admits it, and the decision repeats; else
nothing happens, whatever stands behind. A granted rail rises with its rise time and setpoint code, its
measured mark cleared (R88); its run's step condition becomes RISING (R53); REG_FAULT is raised where the line
is asserted and no rail of the socket was RISING or ON (R64). -/
def Obligations.GrantsFollowTheHeadOfTheList : Prop :=
  ∀ s : State,
    (s.waitingList = [] → grantDecision s = s)
    ∧ ∀ k r rest, s.waitingList = (k, r) :: rest →
      (s.board.host.inrushLimit ≤ s.risingCount
          ∨ s.bulkLimit < s.supply.railAllotment + s.supply.grantSum + s.maxPower r →
        grantDecision s = s)
      ∧ (s.risingCount < s.board.host.inrushLimit →
          s.supply.railAllotment + s.supply.grantSum + s.maxPower r ≤ s.bulkLimit →
          let up : State := railEnters k r
            ⟨.rising, some (s.now + 1000 * (s.brd.rail.get r).riseMs), s.effSetpoint k r / 5⟩ s
          let granted : State :=
            { up with
              supply := { up.supply with grantSum := s.supply.grantSum + s.maxPower r }
              runs := put s.runs k ((s.run k).map fun x => { x with cond := .rising })
              fails := if look s.rflt k = true ∧ s.powered k .core = false
                    ∧ s.powered k .aux = false then
                  s.fails ++ [⟨k, .regFault, match r with | .core => 1#16 | .aux => 2#16, none⟩]
                else s.fails }
          grantDecision s = grantDecision granted ∧ granted.waitingList = rest
            ∧ granted.risingCount = s.risingCount + 1)

/-- RISE_END, FALL_END and DWELL_END (R52, R53, R56, R57, R58, R60, R62): the rail's new state, and what the
run goes on with; `runSteps` begins a step, and its table is given for every kind of step and every state of
its rail, and for the end of an UP and of a DOWN run. The model's choices: an event that cannot arise changes
nothing (log 13), and at RISE_END the next step begins before the grant decision (log 8). -/
def Obligations.TimedRailEventsAdvanceTheRun : Prop :=
  ∀ (k : Socket) (r : RailKind) (s : State), s.resetting = none →
    let on : State := railEnters k r ⟨.on, none, (s.rail k r).code⟩ s
    let off : State := railEnters k r ⟨.off, none, 0⟩ s
    let left (x : Run) : List Step := (look s.profiles x.profile).drop (x.step - 1)
    ((s.rail k r).state ≠ .rising → exec (.riseEnd k r) s = .next s)
    ∧ ((s.rail k r).state ≠ .falling → exec (.fallEnd k r) s = .next s)
    ∧ ((∀ p i d e, s.run k ≠ some ⟨d, p, i, .dwell e⟩) → exec (.dwellEnd k) s = .next s)
    ∧ ((s.rail k r).state = .rising →
        ((∀ x rest, s.run k = some x → x.cond = .rising → left x ≠ .raise r :: rest) →
          exec (.riseEnd k r) s = .next (grantDecision on))
        ∧ ∀ x rest, s.run k = some x → x.cond = .rising → left x = .raise r :: rest →
            exec (.riseEnd k r) s = .next (grantDecision (runSteps rest (x.step + 1) k on)))
    ∧ ((s.rail k r).state = .falling →
        (s.run k = none → exec (.fallEnd k r) s = .next off)
        ∧ ∀ x, s.run k = some x →
          (∀ q rest, x.cond = .falling → left x = .drop q :: rest →
            exec (.fallEnd k r) s = .next (if (off.rail k q).state = .off then
                runSteps rest (x.step + 1) k off else off))
          ∧ (x.cond = .falling → (∀ q rest, left x ≠ .drop q :: rest) →
            exec (.fallEnd k r) s = .next (runSteps [] x.step k off))
          ∧ (∀ q rest, x.cond = .waitOff → left x = .raise q :: rest →
            exec (.fallEnd k r) s = .next (if q = r then
                grantDecision (runStands k x x.step .waitGrant
                  (railEnters k r ⟨.waitGrant, none, 0⟩ off)) else off))
          ∧ (x.cond ≠ .falling → x.cond ≠ .waitOff ∨ (∀ q rest, left x ≠ .raise q :: rest) →
            exec (.fallEnd k r) s = .next off))
    ∧ (∀ x e, s.run k = some x → x.cond = .dwell e →
        exec (.dwellEnd k) s = .next (runSteps ((left x).drop 1) (x.step + 1) k s))
    ∧ ∀ x i rest, s.run k = some x →
      let stands (c : StepCondition) : State := runStands k x i c s
      let goesOn (u : State) : State := runSteps rest (i + 1) k u
      let fallen : State := railDropped k .aux (railDropped k .core s)
      let ended : State := if bothOff k fallen = true then
          { fallen with runs := put fallen.runs k none } else runStands k x x.step .falling fallen
      ((s.rail k r).state = .off → runSteps (.raise r :: rest) i k s
          = grantDecision (railEnters k r ⟨.waitGrant, none, 0⟩ (stands .waitGrant)))
      ∧ ((s.rail k r).state = .on →
          runSteps (.raise r :: rest) i k s = goesOn (stands .rising))
      ∧ ((s.rail k r).state = .falling → runSteps (.raise r :: rest) i k s = stands .waitOff)
      ∧ ((s.rail k r).state = .on → runSteps (.drop r :: rest) i k s
          = railEnters k r (fallingRail r s) (stands .falling))
      ∧ ((s.rail k r).state = .rising → runSteps (.drop r :: rest) i k s
          = grantDecision (railEnters k r (fallingRail r s) (stands .falling)))
      ∧ ((s.rail k r).state = .falling → runSteps (.drop r :: rest) i k s = stands .falling)
      ∧ ((s.rail k r).state = .waitGrant → runSteps (.drop r :: rest) i k s
          = goesOn (railEnters k r ⟨.off, none, 0⟩ (stands .falling)))
      ∧ ((s.rail k r).state = .off →
          runSteps (.drop r :: rest) i k s = goesOn (stands .falling))
      ∧ (∀ ms, runSteps (.dwell ms :: rest) i k s = stands (.dwell (s.now + 1000 * ms)))
      ∧ (∀ lo hi, runSteps (.verify r lo hi :: rest) i k s = stands .sample)
      ∧ (x.direction = .up → runSteps [] i k s = { s with runs := put s.runs k none })
      ∧ (x.direction = .down → runSteps [] i k s
          = if (s.rail k .core).state = .rising ∨ (s.rail k .aux).state = .rising then
              grantDecision ended
            else ended)

/-- REG_FAULT is raised exactly when "the line is asserted and a rail of the socket is RISING or ON"
becomes true by the level taken, with the rails in its detail (R64). -/
def Obligations.RegFaultIsRaisedWhenItsConditionBecomesTrue : Prop :=
  ∀ (k : Socket) (asserted : Bool) (s : State), s.resetting = none →
    exec (.rfltNLevel k asserted) s = .next { s with
      rflt := put s.rflt k asserted
      fails := if asserted = true ∧ look s.rflt k = false
            ∧ (s.powered k .core = true ∨ s.powered k .aux = true) then
          s.fails ++ [⟨k, .regFault,
            if s.powered k .core = true then (if s.powered k .aux = true then 3#16 else 1#16) else 2#16,
            none⟩]
        else s.fails }

/-- The completion of an up-profile (R5) and of a down-profile (R9, R158); without a run that has ended
there is no completion to report (log 6). -/
def Obligations.ProfileReportsMoveTheSocket : Prop :=
  ∀ (k : Socket) (s : State), s.resetting = none →
    ((s.sock k).state = .starting → s.run k = none →
      exec (.upProfileComplete k) s = .next { s with
        sockets := put s.sockets k { s.sock k with state := .stressing } })
    ∧ ((s.sock k).state ≠ .starting ∨ s.run k ≠ none →
        exec (.upProfileComplete k) s = .next s)
    ∧ ((s.sock k).state ≠ .stopping ∨ s.run k ≠ none ∨ bothOff k s = false →
        exec (.downProfileComplete k) s = .next s)
    ∧ ((s.sock k).state = .stopping → s.run k = none → bothOff k s = true →
        ∀ d, (s.sock k).stopDest = some d →
        let entered : SocketRecord := match d with
          | .idle => { s.sock k with
              state := .idle, stopDest := none, holdReason := none, holdTime := none, bin := 0 }
          | .done => { s.sock k with
              state := .done, stopDest := none, holdReason := none, holdTime := none, bin := 1 }
          | .retired => { s.sock k with
              state := .retired, stopDest := none, holdReason := none, holdTime := none
              bin := match (s.sock k).retireKind with
                | some f => (look s.policy (kindIndex f)).bin
                | none => (s.sock k).bin }
          | .held => { s.sock k with
              state := .held, stopDest := none, holdTime := some s.board.host.holdTime
              expiryDue := false, bin := 0 }
        let settled : State := { s with sockets := put s.sockets k entered }
        exec (.downProfileComplete k) s = .next
          (if s.mode = .shutdown ∧ ∀ j, settled.busy j = false then
            { settled with mode := .config, nextTick := none, timers := ⟨.stopped, .stopped⟩ }
          else settled))

/-! ### Sockets (R1 to R20) -/

/-- A stop order by the socket's state (R7, R8): a running socket goes to STOPPING with the order's
destination, its heat and window end, its up-profile is abandoned (R61) and its down-profile begins at its
first step; a STOPPING one changes by a RETIRED order alone; in every other state the order is discarded. The
list of orders in flight is the model's (log 5). -/
def Obligations.StopOrdersActByState : Prop :=
  ∀ (o : StopOrder) (s : State), s.resetting = none →
    (s.live o.socket = true →
      ∃ t, exec (.stopOrder o) s = .next t ∧ Stops o.socket o.dest s t ∧ StopFrame s t
        ∧ t.orders = s.orders.erase o ∧ t.answer = s.answer)
    ∧ ((s.sock o.socket).state = .stopping →
        exec (.stopOrder o) s = .next { s with
          orders := s.orders.erase o
          sockets := put s.sockets o.socket (match o.dest with
            | .toRetired f =>
                if (s.sock o.socket).stopDest = some .retired then s.sock o.socket
                else { s.sock o.socket with
                  stopDest := some .retired, holdReason := none, retireKind := some f }
            | .toIdle | .toDone | .toPolicyHold _ | .toShedHold => s.sock o.socket) })
    ∧ (s.busy o.socket = false →
        exec (.stopOrder o) s = .next { s with orders := s.orders.erase o })

/-- The checks of R12 for the socket requests, in order, with the modes of each. -/
def Obligations.SocketRequestChecksRunInOrder : Prop :=
  ∀ (n : Byte) (v : ParamValues) (s : State), s.resetting = none →
    ∀ c ∈ [(Instr.startSocket n, [Mode.run]), (Instr.stopSocket n, [Mode.run, Mode.pause]),
        (Instr.retrySocket n, [Mode.run]), (Instr.clearSocket n, [Mode.config]),
        (Instr.setSocketParams n v, [Mode.config, Mode.run, Mode.pause, Mode.shutdown, Mode.safe])],
      (15 < n.toNat → Refuses c.1 s .range)
      ∧ ∀ k : Socket, k.val = n.toNat →
        (s.board.attach = .attaching → Refuses c.1 s .busy)
        ∧ (s.board.attach ≠ .attaching → s.board.attach ≠ .attached → Refuses c.1 s .notAttached)
        ∧ (s.board.attach = .attached → (s.sock k).state = .empty → Refuses c.1 s .emptySocket)
        ∧ (s.board.attach = .attached → (s.sock k).state ≠ .empty → s.mode ∉ c.2 →
            Refuses c.1 s .wrongMode)

/-- StartSocket, StopSocket and RetrySocket on a fitted socket in a mode that takes them (R13, R14, R15),
and the expiry of a hold timer (R11). A socket that enters STARTING keeps its retries but for a POLICY retry,
and its up-profile begins (R4, R52). The model's choices: an expiry is taken in RUN and PAUSE alone (log 7),
also with hold time left (log 4); an expiry without a timer or on a socket not HELD changes nothing, and
RetrySocket on a HELD(SAFE) socket is INVALID (log 13). -/
def Obligations.SocketsStartStopAndRetryByState : Prop :=
  ∀ (n : Byte) (k : Socket) (s : State), s.resetting = none → k.val = n.toNat →
    s.board.attach = .attached → (s.sock k).state ≠ .empty →
    let told (r : Result) (x : SocketState) : Option Answer := some ⟨r, put1 x.code⟩
    let retried : SocketRecord := { s.sock k with retries := (s.sock k).retries + 1 }
    (s.mode = .run →
      ((s.sock k).state = .idle → ∃ t, exec (.startSocket n) s = .next t
        ∧ EntersStarting k (s.sock k) s t ∧ t.answer = told .ok .starting)
      ∧ ((s.sock k).state ≠ .idle → exec (.startSocket n) s
          = .next { s with answer := told .invalid (s.sock k).state }))
    ∧ (s.mode = .run ∨ s.mode = .pause →
        (s.live k = true → ∃ t, exec (.stopSocket n) s = .next t ∧ Stops k .toIdle s t
          ∧ StopFrame s t ∧ t.orders = s.orders ∧ t.answer = told .ok .stopping)
        ∧ ((s.sock k).state = .held → exec (.stopSocket n) s = .next { s with
            sockets := put s.sockets k { s.sock k with
              state := .idle, holdReason := none, holdTime := none, expiryDue := false }
            answer := told .ok .idle })
        ∧ ((s.sock k).state = .stopping ∨ (s.sock k).state = .idle →
            exec (.stopSocket n) s = .next { s with answer := told .ok (s.sock k).state })
        ∧ ((s.sock k).state = .retired ∨ (s.sock k).state = .done →
            exec (.stopSocket n) s = .next { s with answer := told .invalid (s.sock k).state }))
    ∧ (s.mode = .run →
        ((s.sock k).state ≠ .held → exec (.retrySocket n) s
          = .next { s with answer := told .invalid (s.sock k).state })
        ∧ ((s.sock k).state = .held → (s.sock k).holdReason = some .policy →
            ((s.sock k).retries < s.board.host.retryLimit →
              ∃ t, exec (.retrySocket n) s = .next t ∧ EntersStarting k retried s t
                ∧ t.answer = told .ok .starting)
            ∧ (s.board.host.retryLimit ≤ (s.sock k).retries →
                exec (.retrySocket n) s = .next { s with answer := told .limit .held }))
        ∧ ((s.sock k).state = .held → (s.sock k).holdReason = some .shed →
            ∃ t, exec (.retrySocket n) s = .next t ∧ EntersStarting k (s.sock k) s t
              ∧ t.answer = told .ok .starting)
        ∧ ((s.sock k).state = .held →
            (s.sock k).holdReason = some .safe ∨ (s.sock k).holdReason = none →
            exec (.retrySocket n) s = .next { s with answer := told .invalid .held }))
    ∧ (s.mode = .run ∨ s.mode = .pause → (s.sock k).state = .held →
        (s.sock k).expiryDue = true ∨ (∃ h, (s.sock k).holdTime = some (h + 1)) →
        ((s.sock k).holdReason = some .shed → ∃ t, exec (.holdExpiry k) s = .next t
          ∧ EntersStarting k (s.sock k) s t ∧ t.answer = s.answer)
        ∧ ((s.sock k).holdReason = some .policy → (s.sock k).retries < s.board.host.retryLimit →
            ∃ t, exec (.holdExpiry k) s = .next t ∧ EntersStarting k retried s t
              ∧ t.answer = s.answer)
        ∧ ((s.sock k).holdReason = some .policy → s.board.host.retryLimit ≤ (s.sock k).retries →
            ∀ f, (s.sock k).holdKind = some f →
            exec (.holdExpiry k) s = .next { s with sockets := put s.sockets k { s.sock k with
              state := .retired, retireKind := some f, bin := (look s.policy (kindIndex f)).bin
              holdReason := none, holdTime := none, expiryDue := false } }))
    ∧ ((s.sock k).state ≠ .held ∨ (s.mode ≠ .run ∧ s.mode ≠ .pause)
          ∨ (s.sock k).holdReason = some .safe ∨ (s.sock k).holdReason = none
          ∨ ((s.sock k).expiryDue = false
            ∧ ((s.sock k).holdTime = none ∨ (s.sock k).holdTime = some 0)) →
        exec (.holdExpiry k) s = .next s)

/-- ClearSocket is refused outside CONFIG; a socket in IDLE, HELD, RETIRED or DONE enters IDLE with an
empty history; host parameters and stress target are kept (R16), its tick result is removed (R147). -/
def Obligations.ClearSocketEmptiesTheHistory : Prop :=
  ∀ (n : Byte) (k : Socket) (s : State), s.resetting = none → k.val = n.toNat →
    s.board.attach = .attached → (s.sock k).state ≠ .empty →
    (s.mode ≠ .config → Refuses (.clearSocket n) s .wrongMode)
    ∧ (s.mode = .config →
        (s.sock k).state = .idle ∨ (s.sock k).state = .held ∨ (s.sock k).state = .retired
          ∨ (s.sock k).state = .done →
        exec (.clearSocket n) s = .next { s with
          sockets := put s.sockets k
            { state := .idle
              stopDest := none
              holdReason := none
              holdKind := none
              retireKind := none
              holdTime := none
              expiryDue := false
              retries := 0
              bin := 0
              episode := tab8 fun _ => 0
              cumulative := tab8 fun _ => 0
              firstFail := none
              lastFail := none
              unlogged := 0
              credit := 0
              stressTarget := (s.sock k).stressTarget
              lastPass := none
              params := (s.sock k).params }
          tickResult := put s.tickResult k none
          answer := some ⟨.ok, [1#8]⟩ })

/-- SetSocketParams (R17, R65): refused whole, or every value written after its adjustment; a RISING or ON
rail's code lines take the new setpoint at once. The width of the replied ramp, Kp and Ki is the model's
reading (log 16). -/
def Obligations.SetSocketParamsWritesAdjustedValues : Prop :=
  ∀ (n : Byte) (v : ParamValues) (k : Socket) (s : State), s.resetting = none → k.val = n.toNat →
    s.board.attach = .attached → (s.sock k).state ≠ .empty →
    (3 < v.upProfile.toNat ∨ 3 < v.downProfile.toNat ∨ 2 < v.edge.toNat
        ∨ 16777215 < v.stressTarget.toNat →
      Refuses (.setSocketParams n v) s .range)
    ∧ ∀ (up down : ProfileId) (e : EdgeSelection), up.val = v.upProfile.toNat →
      down.val = v.downProfile.toNat → e.code = v.edge.toNat → v.stressTarget.toNat ≤ 16777215 →
      let p : HostParams :=
        { (s.sock k).params with
          target := clampInt (-640) s.absLimit v.target.toInt
          ramp := min 255 v.ramp.toNat
          kp := min 255 v.kp.toNat
          ki := min 255 v.ki.toNat
          setpoint :=
            ⟨clampNat (s.spMin .core) (s.spMax .core) (v.core.toNat / 5 * 5),
             clampNat (s.spMin .aux) (s.spMax .aux) (v.aux.toNat / 5 * 5)⟩
          upProfile := up
          downProfile := down
          edge := e }
      ∃ t, exec (.setSocketParams n v) s = .next t
        ∧ t.sockets = put s.sockets k
            { s.sock k with stressTarget := v.stressTarget.toNat, params := p }
        ∧ (∀ r, t.rail k r = if s.powered k r = true then
              { s.rail k r with
                code := clampNat (s.spMin r) (s.spMax r) (p.setpoint.get r) / 5 }
            else s.rail k r)
        ∧ (∀ j, j ≠ k → look t.rails j = look s.rails j)
        ∧ t.answer = some ⟨.ok, put1 (s.sock k).state.code ++ put2s p.target ++ put2 p.ramp
            ++ put2 p.kp ++ put2 p.ki ++ put2 p.setpoint.core ++ put2 p.setpoint.aux
            ++ put1 up.val ++ put1 down.val ++ put1 e.code ++ put4 v.stressTarget.toNat⟩
        ∧ t = { s with sockets := t.sockets, rails := t.rails, answer := t.answer }

/-! ### Board modes (R155 to R162) -/

/-- Quench and a deasserted OVEN_OK enter SAFE from every mode but SAFE, where they change nothing but the
level and the answer; an asserted OVEN_OK never leaves SAFE (R159, R160). A level already taken changes
nothing, and a STOPPING socket without destination goes to IDLE (the model's choices, log 13). -/
def Obligations.QuenchAndOvenEnterSafe : Prop :=
  ∀ (broadcast : Bool) (s : State), s.resetting = none →
    let answered (m : Mode) : Option Answer :=
      if broadcast = true then none else some ⟨.ok, put1 m.code⟩
    (s.mode = .safe → exec (.quench broadcast) s = .next { s with answer := answered .safe })
    ∧ (s.mode ≠ .safe → ∃ t, EntersSafe .quench s t
        ∧ exec (.quench broadcast) s = .next { t with answer := answered .safe })
    ∧ exec (.ovenOkLevel true) s = .next { s with ovenOk := true }
    ∧ (s.mode = .safe → exec (.ovenOkLevel false) s = .next { s with ovenOk := false })
    ∧ (s.ovenOk = false → exec (.ovenOkLevel false) s = .next s)
    ∧ (s.mode ≠ .safe → s.ovenOk = true →
        ∃ t, exec (.ovenOkLevel false) s = .next t ∧ EntersSafe .oven { s with ovenOk := false } t)

/-- Start (R156, R18, R104, R148): refused outside CONFIG; the first check that fails is named; when all
pass, RUN, the run clock from 0, the timers loaded, and every IDLE and HELD(SAFE) socket in STARTING with its
up-profile begun (R52, R53); of the other sockets a waiting rail may have been granted. The item codes from 0
are the model's reading (log 18). -/
def Obligations.StartChecksAndBeginsTheRun : Prop :=
  ∀ s : State, s.resetting = none →
    let checked (k : Socket) : Prop := (s.sock k).state ≠ .empty ∧ (s.sock k).state ≠ .retired
      ∧ (s.sock k).state ≠ .done
    let upOk (k : Socket) : Prop :=
      checked k → upValid (look s.profiles (s.sock k).params.upProfile) = true
    let downOk (k : Socket) : Prop :=
      checked k → downValid (look s.profiles (s.sock k).params.downProfile) = true
    let targetOk (k : Socket) : Prop := checked k → (s.sock k).params.target ≤ s.absLimit
    let edgesOk (i : SlotId) : Prop := (s.slot i).edgeMin ≤ (s.slot i).edgeMax
    let invalid (item number : Byte) : Host.Outcome State Fault Refusal :=
      .next { s with answer := some ⟨.invalid, [item, number]⟩ }
    let starts (k : Socket) : Prop :=
      (s.sock k).state = .idle
        ∨ ((s.sock k).state = .held ∧ (s.sock k).holdReason = some .safe)
    (s.mode ≠ .config → Refuses .start s .wrongMode)
    ∧ (s.mode = .config → s.board.attach ≠ .attached → exec .start s = invalid 0#8 0xFF#8)
    ∧ (s.mode = .config → s.board.attach = .attached → s.ovenOk = false →
        exec .start s = invalid 1#8 0xFF#8)
    ∧ (s.mode = .config → s.board.attach = .attached → s.ovenOk = true →
        (∀ k, ¬upOk k → (∀ j, j < k → upOk j) → exec .start s = invalid 2#8 (BitVec.ofNat 8 k.val))
        ∧ ((∀ k, upOk k) → ∀ k, ¬downOk k → (∀ j, j < k → downOk j) →
            exec .start s = invalid 3#8 (BitVec.ofNat 8 k.val))
        ∧ ((∀ k, upOk k) → (∀ k, downOk k) → ∀ k, ¬targetOk k → (∀ j, j < k → targetOk j) →
            exec .start s = invalid 4#8 (BitVec.ofNat 8 k.val))
        ∧ ((∀ k, upOk k) → (∀ k, downOk k) → (∀ k, targetOk k) →
            ∀ i, ¬edgesOk i → (∀ j, j < i → edgesOk j) →
            exec .start s = invalid 5#8 (BitVec.ofNat 8 i.val))
        ∧ ((∀ k, upOk k) → (∀ k, downOk k) → (∀ k, targetOk k) → (∀ i, edgesOk i) →
            ∃ t, exec .start s = .next t ∧ t.mode = .run ∧ t.runClock = 0
              ∧ t.nextTick = some (s.now + 1000000)
              ∧ (∀ x, timerOf x t = if 0 < intervalOf x s then
                  .running (s.now + 1000 * intervalOf x s) else .stopped)
              ∧ (∀ k, starts k → t.sock k = startingRecord (s.sock k)
                  ∧ look t.heat k = startingHeat s k ∧ look t.tickResult k = none)
              ∧ (∀ k, ¬starts k → t.sock k = s.sock k ∧ look t.heat k = look s.heat k
                  ∧ look t.tickResult k = look s.tickResult k ∧ GrantedAtMost k s t)
              ∧ (∀ k x, starts k → t.run k = some x →
                  x.direction = .up ∧ x.profile = (s.sock k).params.upProfile)
              ∧ (∀ k q rest, starts k → bothOff k s = true →
                  look s.profiles (s.sock k).params.upProfile = .raise q :: rest →
                  RaisesFirst k (s.sock k).params.upProfile q t)
              ∧ t.answer = some ⟨.ok, [1#8]⟩
              ∧ t = { s with
                  mode := .run
                  runClock := 0
                  nextTick := t.nextTick
                  timers := t.timers
                  sockets := t.sockets
                  heat := t.heat
                  tickResult := t.tickResult
                  rails := t.rails
                  runs := t.runs
                  fails := t.fails
                  supply := { s.supply with
                    measured := t.supply.measured, grantSum := t.supply.grantSum }
                  answer := t.answer }))

/-- Pause, Resume and Clear (R157, R162, R104): the modes, the timers, the answers; a broadcast Pause or
Resume is never answered and is ignored in a mode that does not take it. At Resume the arbiter decides
(R107, R108); a timer that was frozen with no time left then expires at once, and two of them in either order
(the model's choice, log 26). -/
def Obligations.PauseResumeAndClearMoveTheMode : Prop :=
  ∀ (broadcast : Bool) (s : State), s.resetting = none →
    let answered (m : Mode) : Option Answer :=
      if broadcast = true then none else some ⟨.ok, put1 m.code⟩
    let turnedAway : State :=
      { s with answer := if broadcast = true then none else some ⟨.wrongMode, []⟩ }
    let frozen (x : Timer) : Timer := match x with
      | .running d => .frozen (d - s.now)
      | .frozen r => .frozen r
      | .stopped => .stopped
    let thawed (x : Timer) : Timer := match x with
      | .frozen r => .running (s.now + r)
      | .running d => .running d
      | .stopped => .stopped
    let out (x : Timer) : Prop := x = .frozen 0 ∨ ∃ d, x = .running d ∧ d ≤ s.now
    let resumed : State :=
      { s with mode := .run, timers := ⟨thawed s.timers.timer0, thawed s.timers.timer1⟩ }
    (s.mode = .run → exec (.pause broadcast) s = .next { s with
        mode := .pause
        timers := ⟨frozen s.timers.timer0, frozen s.timers.timer1⟩
        answer := answered .pause })
    ∧ (s.mode ≠ .run → exec (.pause broadcast) s = .next turnedAway)
    ∧ (s.mode ≠ .pause → exec (.resume broadcast) s = .next turnedAway)
    ∧ (s.mode = .pause → ∃ u, Arbitrated resumed u
        ∧ (¬out s.timers.timer0 → ¬out s.timers.timer1 →
          exec (.resume broadcast) s = .next { u with answer := answered .run })
        ∧ (out s.timers.timer0 → ¬out s.timers.timer1 →
          ∃ v, exec (.dispatchTimerExpiry .timer0) u = .next v
            ∧ exec (.resume broadcast) s = .next { v with answer := answered .run })
        ∧ (¬out s.timers.timer0 → out s.timers.timer1 →
          ∃ v, exec (.dispatchTimerExpiry .timer1) u = .next v
            ∧ exec (.resume broadcast) s = .next { v with answer := answered .run })
        ∧ (out s.timers.timer0 → out s.timers.timer1 →
          ∃ first second v w, (first = .timer0 ∧ second = .timer1
              ∨ first = .timer1 ∧ second = .timer0)
            ∧ exec (.dispatchTimerExpiry first) { u with draws := s.draws + 1 } = .next v
            ∧ exec (.dispatchTimerExpiry second) v = .next w
            ∧ exec (.resume broadcast) s = .next { w with answer := answered .run }))
    ∧ (s.mode = .pause → ∃ t, exec (.resume broadcast) s = .next t ∧ t.mode = .run
        ∧ t.sockets = s.sockets ∧ t.rails = s.rails ∧ t.heat = s.heat ∧ t.log = s.log
        ∧ t.runClock = s.runClock ∧ t.nextTick = s.nextTick ∧ t.answer = answered .run)
    ∧ (s.mode ≠ .safe → Refuses .clear s .wrongMode)
    ∧ (s.mode = .safe → s.ovenOk = false → Refuses .clear s .interlock)
    ∧ (s.mode = .safe → s.ovenOk = true → exec .clear s = .next { s with
        mode := .config
        safeCause := none
        nextTick := none
        timers := ⟨.stopped, .stopped⟩
        answer := some ⟨.ok, [0#8]⟩ })

/-- Shutdown (R158, R20, R115): every running socket goes to STOPPING with destination IDLE, its rise
abandoned (R61) and its down-profile begun (R7), PENDING slots are closed, the timers stop; with no socket
running or stopping the board is in CONFIG at once. The stop orders are taken in socket order, so that a rail
that waits may be granted before its own socket is stopped (the model's choice, log 31). -/
def Obligations.ShutdownStopsEveryRunningSocket : Prop :=
  ∀ s : State, s.resetting = none →
    (s.mode ≠ .run → s.mode ≠ .pause → Refuses .shutdown s .wrongMode)
    ∧ (s.mode = .run ∨ s.mode = .pause →
        ∃ t, exec .shutdown s = .next t
          ∧ (∀ k, t.sock k = if s.live k = true then
                { s.sock k with state := .stopping, stopDest := some .idle }
              else s.sock k)
          ∧ (∀ k, s.live k = true → (look t.heat k).demand = 0 ∧ look t.supply.applied k = 0
              ∧ look t.active k = 0 ∧ look t.heaterOn k = false ∧ windowOf k t = none
              ∧ (∀ x, t.run k = some x →
                x.direction = .down ∧ x.profile = (s.sock k).params.downProfile)
              ∧ (t.run k = none → bothOff k t = true)
              ∧ (downValid (look s.profiles (s.sock k).params.downProfile) = true → ∀ r,
                ((s.rail k r).state = .off ∨ (s.rail k r).state = .falling →
                  t.rail k r = s.rail k r)
                ∧ ((s.rail k r).state = .on →
                  t.rail k r = s.rail k r ∨ t.rail k r = fallingRail r s)
                ∧ ((s.sock k).state = .starting → s.run k ≠ none →
                  ((s.rail k r).state = .rising → t.rail k r = fallingRail r s)
                  ∧ ((s.rail k r).state = .waitGrant →
                    t.rail k r = ⟨.off, none, 0⟩ ∨ t.rail k r = fallingRail r s))))
          ∧ (∀ k, s.live k = false → GrantedAtMost k s t ∧ look t.heat k = look s.heat k
              ∧ look t.mon k = look s.mon k ∧ look t.supply.applied k = look s.supply.applied k
              ∧ look t.active k = look s.active k ∧ look t.heaterOn k = look s.heaterOn k
              ∧ look t.heaterOff k = look s.heaterOff k)
          ∧ t = { s with
              mode := t.mode
              nextTick := t.nextTick
              sockets := t.sockets
              rails := t.rails
              runs := t.runs
              fails := t.fails
              heat := t.heat
              active := t.active
              heaterOn := t.heaterOn
              heaterOff := t.heaterOff
              mon := t.mon
              slots := t.slots
              timers := t.timers
              answer := t.answer
              supply := { s.supply with
                measured := t.supply.measured
                grantSum := t.supply.grantSum
                applied := t.supply.applied } }
          ∧ (∀ i, t.slot i = if (s.slot i).state = .pending then
                { s.slot i with state := .idle, last := .aborted } else s.slot i)
          ∧ t.timers = ⟨.stopped, .stopped⟩ ∧ t.bus = s.bus ∧ t.log = s.log
          ∧ t.runClock = s.runClock
          ∧ ((∀ k, s.busy k = false) →
              t.mode = .config ∧ t.nextTick = none ∧ t.answer = some ⟨.ok, [0#8]⟩)
          ∧ ((∃ k, s.busy k = true) →
              t.mode = .shutdown ∧ t.nextTick = s.nextTick ∧ t.answer = some ⟨.ok, [3#8]⟩))

/-! ### Heater control (R68 to R86) -/

/-- Stages 3 to 9 (R75 to R79): the effective setpoint moves toward the target by at most the ramp and
reaches it exactly; the error and the terms stay in their ranges; the integrator takes the candidate unless
it would push a saturated output further; the demand is the clamped output. -/
def Obligations.TheRampAndControlStages : Prop :=
  ∀ (target before t : Int) (ramp integrator kp ki : Nat),
    kp ≤ 255 → ki ≤ 255 → integrator ≤ 256000 →
    let e := rampStage target ramp before
    let err := errorStage e t
    let p := Int.tdiv (kp * err) 16
    let cand : Int := clampInt 0 256000 (integrator + ki * err)
    let out := controlStage integrator kp ki err
    (ramp = 0 → e = target)
    ∧ ((target - before).natAbs ≤ ramp → e = target)
    ∧ (0 < ramp → ramp < (target - before).natAbs → before < target → e = before + ramp)
    ∧ (0 < ramp → ramp < (target - before).natAbs → target < before → e = before - ramp)
    ∧ min before target ≤ e ∧ e ≤ max before target
    ∧ err = clampInt (-1600) 1600 (e - t) ∧ -1600 ≤ err ∧ err ≤ 1600
    ∧ proportional kp err = p ∧ -25500 ≤ p ∧ p ≤ 25500
    ∧ 0 ≤ cand / 256 ∧ cand / 256 ≤ 1000
    ∧ out.1 ≤ 256000 ∧ out.2 ≤ 1000
    ∧ ((1000 < p + cand / 256 ∧ 0 < err) ∨ (p + cand / 256 < 0 ∧ err < 0) →
        out.1 = integrator ∧ (out.2 : Int) = clampInt 0 1000 (p + (integrator : Int) / 256))
    ∧ (¬((1000 < p + cand / 256 ∧ 0 < err) ∨ (p + cand / 256 < 0 ∧ err < 0)) →
        (out.1 : Int) = cand ∧ (out.2 : Int) = clampInt 0 1000 (p + cand / 256))

/-- A TEMP arrival by the socket's state (R72 to R74, R80): its demand and duties, its counters and the
fail it raises, which is taken at once (R72; the model's reading, log 39; FailsAreCountedActedOnAndLogged says
what the taking does); nothing else changes but the scanner. An absent effective setpoint counts as the target
(the model's choice, log 28), and the next code is due 400 µs after the arrival taken (log 37). -/
def Obligations.ATempArrivalRunsTheStages : Prop :=
  ∀ (code : BitVec 12) (k : Socket) (number at_ : Nat) (s : State), s.resetting = none →
    s.scan.round = some ⟨number, .temp k, at_⟩ →
    let c := look s.heat k
    let x := tempSample code.toNat (look s.brd.calibration k) number
    let scan : Scanner :=
      { s.scan with
        round := some ⟨number, .current k .core, s.now + 400⟩
        temp := put s.scan.temp k (some x) }
    let zeroed (heat : HeatControl) : State :=
      { s with
        scan := scan
        heat := put s.heat k { heat with demand := 0 }
        supply := { s.supply with applied := put s.supply.applied k 0 }
        active := put s.active k 0
        heaterOn := put s.heaterOn k false
        heaterOff := put s.heaterOff k none }
    (s.busy k = false → exec (.channelArrival code) s = .next { s with scan := scan })
    ∧ ((s.sock k).state = .stopping → x.value = none →
        exec (.channelArrival code) s = .next { s with scan := scan })
    ∧ (s.live k = true → x.value = none → c.invalid + 1 < 3 →
        exec (.channelArrival code) s = .next (zeroed { c with invalid := c.invalid + 1 }))
    ∧ (s.live k = true → x.value = none → 3 ≤ c.invalid + 1 →
        exec (.channelArrival code) s = .next
          (takeFail ⟨k, .sensor, BitVec.ofNat 16 code.toNat, none⟩ (zeroed { c with invalid := 0 })))
    ∧ ∀ t : Int, x.value = some t →
      ((s.sock k).state = .stopping → t < s.absLimit →
        exec (.channelArrival code) s = .next { s with scan := scan })
      ∧ ((s.sock k).state = .stopping → s.absLimit ≤ t →
          exec (.channelArrival code) s
            = .next (takeFail ⟨k, .overtemp, BitVec.ofInt 16 t, none⟩ (zeroed c)))
      ∧ (s.live k = true → s.absLimit ≤ t →
          exec (.channelArrival code) s
            = .next (takeFail ⟨k, .overtemp, BitVec.ofInt 16 t, none⟩
                (zeroed { c with invalid := 0 })))
      ∧ (s.live k = true → t < s.absLimit →
          let p := (s.sock k).params
          let e := rampStage p.target p.ramp (c.effective.getD p.target)
          let out := controlStage c.integrator p.kp p.ki (errorStage e t)
          let count :=
            if e + s.board.host.runawayGuard ≤ t ∧ out.2 = 0 then c.runaway + 1 else 0
          let fails : Bool := decide (0 < count ∧ s.board.host.runawayDwell ≤ count)
          let done : State :=
            { s with
              scan := scan
              heat := put s.heat k
                { effective := some e
                  integrator := out.1
                  invalid := 0
                  runaway := if fails = true then 0 else count
                  demand := out.2 } }
          exec (.channelArrival code) s = .next (if fails = true then
              takeFail ⟨k, .runaway, BitVec.ofInt 16 t, none⟩ done else done))

/-! ### Sense scanning (R35 to R45) -/

/-- The conversion of codes into sample records (R42, R43, R44). -/
def Obligations.CodesAreConverted : Prop :=
  ∀ (code : BitVec 12) (number at_ : Nat) (s : State), s.resetting = none →
    (∀ k : Socket, s.scan.round = some ⟨number, .temp k, at_⟩ →
      ∃ t, exec (.channelArrival code) s = .next t
        ∧ (code.toNat ≤ 15 → look t.scan.temp k = some ⟨none, .short, code.toNat, number⟩)
        ∧ (16 ≤ code.toNat → code.toNat ≤ 4079 →
            look t.scan.temp k = some
              ⟨some (clampInt (-640) 3200
                ((code.toNat : Int) * 15 / 16 - 640 + look s.brd.calibration k)),
               .valid, code.toNat, number⟩)
        ∧ (4080 ≤ code.toNat →
            look t.scan.temp k = some ⟨none, .openCircuit, code.toNat, number⟩))
    ∧ (∀ (k : Socket) (r : RailKind), s.scan.round = some ⟨number, .current k r, at_⟩ →
        ∃ t, exec (.channelArrival code) s = .next t
          ∧ (look t.scan.current k).get r = some
              ⟨some ((code.toNat * (s.brd.rail.get r).fullScale / 4096 : Nat) : Int), .valid,
               code.toNat, number⟩)
    ∧ (s.scan.round = some ⟨number, .bulk, at_⟩ →
        ∃ t, exec (.channelArrival code) s = .next t
          ∧ t.scan.bulk = some
              ⟨some ((code.toNat * 16 : Nat) : Int), .valid, code.toNat, number⟩)

/-- A current arrival (R37, R39, R63, R59, R88): its record, the channel that follows and to which the sense
multiplexer is set, the rail's measured mark, and OVERCURRENT exactly when the rail is RISING or ON and the
sample is above the trip current. A VERIFY step that waits for the rail is judged and left behind: the run
goes on with its next step, no other fail is handed on but the REG_FAULT of a grant that follows, and then the
Fail Handler takes the VERIFY's own fail, if R59's table gives one (in the same step: log 39). Where that next
step changes the rail's own state, its mark is set or not (the model's free choice, log 9). The next code is
due 400 µs after the arrival taken (log 37). -/
def Obligations.ACurrentArrivalIsComparedWithTheTrip : Prop :=
  ∀ (code : BitVec 12) (k : Socket) (r : RailKind) (number at_ : Nat) (s : State),
    s.resetting = none → s.scan.round = some ⟨number, .current k r, at_⟩ →
    let i := code.toNat * (s.brd.rail.get r).fullScale / 4096
    let tripped : List FailMsg :=
      if s.powered k r = true ∧ s.trip r < i then [⟨k, .overcurrent, BitVec.ofNat 16 i, none⟩] else []
    let following : Channel := match r with
      | .core => .current k .aux
      | .aux => match allSockets.find? fun j => decide (k < j) && s.populated j with
        | some j => .temp j
        | none => .bulk
    let arrived : State :=
      { s with
        scan := { s.scan with
          round := some ⟨number, following, s.now + 400⟩
          current := put s.scan.current k ((look s.scan.current k).set r
            (some ⟨some (i : Int), .valid, code.toNat, number⟩)) }
        fails := s.fails ++ tripped
        supply := { s.supply with
          measured := put s.supply.measured k ((look s.supply.measured k).set r true) } }
    ((∀ x q lo hi, s.run k = some x → x.cond = .sample →
        ((look s.profiles x.profile).drop (x.step - 1)).head? = some (.verify q lo hi) → q ≠ r) →
      exec (.channelArrival code) s = .next arrived)
    ∧ arrived.senseSelect = some following
    ∧ (∀ x lo hi rest, s.run k = some x → x.cond = .sample →
        (look s.profiles x.profile).drop (x.step - 1) = .verify r lo hi :: rest →
        let judged : Option FailMsg :=
          if (s.rail k r).state ≠ .on then some ⟨k, .undercurrent, BitVec.ofNat 16 i, none⟩
          else if s.trip r < i then none
          else if hi < i then some ⟨k, .overcurrent, BitVec.ofNat 16 i, none⟩
          else if i < lo then some ⟨k, .undercurrent, BitVec.ofNat 16 i, none⟩
          else none
        let v : State := runSteps rest (x.step + 1) k arrived
        let drawn : State := { v with draws := s.draws + 1 }
        ∃ u more, exec (.channelArrival code) s = .next (match judged with
            | some f => takeFail f u
            | none => u)
          ∧ ((look v.supply.measured k).get r = true → u = v)
          ∧ ((look v.supply.measured k).get r = false →
            u = drawn ∨ u = { drawn with supply := { v.supply with
              measured := put v.supply.measured k ((look v.supply.measured k).set r true) } })
          ∧ u.fails = s.fails ++ tripped ++ more ∧ (∀ f ∈ more, f.kind = .regFault)
          ∧ (∀ y, u.run k = some y → x.step < y.step ∨ (rest = [] ∧ x.direction = .down))
          ∧ (rest = [] → x.direction = .up → u.run k = none)
          ∧ u = { arrived with
              rails := u.rails
              runs := u.runs
              fails := u.fails
              draws := u.draws
              supply := { arrived.supply with
                measured := u.supply.measured, grantSum := u.supply.grantSum } })

/-- A BULK_V arrival (R161) ends the round (R40), at which the supply is allotted, the waiting rails are
decided on and the overload is checked (R94 to R96): one low sample is counted, a second in a row enters SAFE
with cause BULK_LOW unless the mode is SAFE, a sample at or above the minimum clears the counter. -/
def Obligations.TwoLowBulkSamplesEnterSafe : Prop :=
  ∀ (code : BitVec 12) (number at_ : Nat) (s : State), s.resetting = none →
    s.scan.round = some ⟨number, .bulk, at_⟩ →
    let arrived (low : Nat) : State :=
      { s with
        bulkLow := low
        scan := { s.scan with
          round := none
          bulk := some ⟨some ((code.toNat * 16 : Nat) : Int), .valid, code.toNat, number⟩ } }
    ∃ t, exec (.channelArrival code) s = .next t
      ∧ t.scan = (arrived 0).scan
      ∧ t.supply.allowance = some ((t.bulkLimit : Int) - t.supply.railAllotment)
      ∧ (s.brd.bulkMinimum ≤ code.toNat * 16 → RoundEnds (arrived 0) t
          ∧ t.bulkLow = 0 ∧ t.mode = s.mode ∧ t.safeCause = s.safeCause)
      ∧ (code.toNat * 16 < s.brd.bulkMinimum → s.bulkLow = 0 → RoundEnds (arrived 1) t
          ∧ t.bulkLow = 1 ∧ t.mode = s.mode ∧ t.safeCause = s.safeCause)
      ∧ (code.toNat * 16 < s.brd.bulkMinimum → s.bulkLow ≠ 0 →
          t.bulkLow = 0 ∧ t.mode = .safe
          ∧ t.safeCause = (if s.mode = .safe then s.safeCause else some .bulkLow)
          ∧ (s.mode = .safe → RoundEnds (arrived 0) t)
          ∧ (s.mode ≠ .safe → ∃ u, EntersSafe .bulkLow (arrived 0) u ∧ RoundEnds u t)
          ∧ (s.mode ≠ .safe → ∀ k, look t.rails k = ⟨.off, .off⟩ ∧ t.run k = none
              ∧ look t.active k = 0 ∧ look t.supply.applied k = 0
              ∧ t.sock k = safeResolved (retireBin k s) s.board.host.holdTime (s.sock k)))

/-- Events of the part's own clocks: a round boundary (R36), at which a round that starts has the sense
multiplexer set to its first channel (R37), a carrier period start and the end of an
on-time (R69); an end without an on-time changes nothing (the model's choice, log 13). -/
def Obligations.RoundAndCarrierClocksRun : Prop :=
  ∀ (k : Socket) (s : State), s.resetting = none →
    let first : Channel := match allSockets.find? s.populated with
      | some j => .temp j
      | none => .bulk
    let started : State := { s with scan := { s.scan with
      nextBoundary := s.now + 50000
      counter := (s.scan.counter + 1) % 256
      round := some ⟨(s.scan.counter + 1) % 256, first, s.now + 400⟩ } }
    (s.board.attach = .attached → s.scan.round = none → exec .roundBoundary s = .next started)
    ∧ started.senseSelect = some first
    ∧ (s.board.attach ≠ .attached ∨ s.scan.round ≠ none →
        exec .roundBoundary s = .next { s with scan := { s.scan with
          nextBoundary := s.now + 50000 } })
    ∧ exec .carrierPeriodStart s = .next { s with
        active := s.supply.applied
        heaterOn := tab16 fun j => decide (0 < look s.supply.applied j)
        heaterOff := tab16 fun j =>
          if look s.supply.applied j = 0 ∨ 1000 ≤ look s.supply.applied j then none
          else some (s.now + look s.supply.applied j * 10)
        nextCarrier := s.now + 10000 }
    ∧ (∀ d, look s.heaterOff k = some d → exec (.heaterOnTimeEnd k) s = .next { s with
        heaterOn := put s.heaterOn k false
        heaterOff := put s.heaterOff k none })
    ∧ (look s.heaterOff k = none → exec (.heaterOnTimeEnd k) s = .next s)

/-! ### Supply allotment (R87 to R98) -/

/-- At every allotment (R89, R91, R92, R93): each rail contributes by R89's table; with the allowance used up
every duty is 0; with enough left every counted socket receives its demand; else the factor is the largest
from 0 to f0 that keeps the applied draws within the allowance. The applied draws never pass the greater of
the allowance and 0. -/
def Obligations.HeaterDrawsStayWithinTheAllowance : Prop :=
  ∀ s : State,
    let t := allot s
    let rating (k : Socket) : Nat := look s.brd.heaterRating k
    let demand (k : Socket) : Nat :=
      if s.live k = true ∧ s.validTemp k ≠ none then (look s.heat k).demand else 0
    let left : Int := (s.bulkLimit : Int) - t.supply.railAllotment
    let total : Nat := sumSockets fun k => rating k * demand k / 1000
    let drawn (f : Nat) : Nat := sumSockets fun k => rating k * (demand k * f / 1024) / 1000
    let first : Nat := left.toNat * 1024 / total
    (∀ k r,
      let share := (look t.supply.contribution k).get r
      let declared := (s.brd.rail.get r).maxPower
      let measured := (look s.supply.measured k).get r
      ((s.rail k r).state = .off ∨ (s.rail k r).state = .waitGrant → share = 0)
      ∧ ((s.rail k r).state = .rising → share = declared)
      ∧ ((s.rail k r).state = .on ∨ (s.rail k r).state = .falling →
        (measured = false → share = declared)
        ∧ ∀ x, measured = true → (look s.scan.current k).get r = some x →
            share = s.effSetpoint k r * (x.value.getD 0).toNat / 10000))
    ∧ t.supply.railAllotment = (sumSockets fun k =>
        (look t.supply.contribution k).core + (look t.supply.contribution k).aux)
    ∧ t.supply.grantSum = 0 ∧ t.supply.allowance = some left ∧ t.supply.totalDraw = total
    ∧ ((sumSockets fun k => rating k * look t.supply.applied k / 1000 : Nat) : Int) ≤ max left 0
    ∧ (left ≤ 0 → t.supply.curtail = 0 ∧ ∀ k, look t.supply.applied k = 0
        ∧ look t.supply.curtailed k = decide (0 < demand k))
    ∧ (0 < left → (total : Int) ≤ left → t.supply.curtail = 1024
        ∧ ∀ k, look t.supply.applied k = demand k ∧ look t.supply.curtailed k = false)
    ∧ (0 < left → left < total → t.supply.curtail ≤ first
        ∧ (drawn t.supply.curtail : Int) ≤ left
        ∧ (∀ f, t.supply.curtail < f → f ≤ first → left < drawn f)
        ∧ ∀ k, look t.supply.applied k = demand k * t.supply.curtail / 1024
          ∧ look t.supply.curtailed k = decide (0 < demand k))
    ∧ t = { s with supply := t.supply }

/-- The overload check (R95) and the choice of the socket to shed (R96): the STRESSING socket whose rails
contributed the most, the lowest index among equals. At a BULK_V arrival that ends a round, an allotment above
the limit is counted once, and the second in a row orders that socket to HELD(SHED); the order is in flight,
or has been taken, in either order with the grant decision of R94 (the model's free choice, log 10). -/
def Obligations.TheSecondOverloadShedsTheLargestSocket : Prop :=
  ∀ s : State,
    let share (k : Socket) : Nat :=
      (look s.supply.contribution k).core + (look s.supply.contribution k).aux
    (s.supply.railAllotment ≤ s.bulkLimit → overloadCheck s = (0, none))
    ∧ (s.bulkLimit < s.supply.railAllotment → s.supply.overload = 0 → overloadCheck s = (1, none))
    ∧ (s.bulkLimit < s.supply.railAllotment → s.supply.overload ≠ 0 →
        ((∀ k, (s.sock k).state ≠ .stressing) → overloadCheck s = (0, none))
        ∧ ∀ k, (s.sock k).state = .stressing →
            (∀ j, (s.sock j).state = .stressing → share j ≤ share k) →
            (∀ j, j < k → (s.sock j).state = .stressing → share j < share k) →
            overloadCheck s = (0, some k))
    ∧ ∀ (code : BitVec 12) (number at_ : Nat), s.resetting = none →
      s.scan.round = some ⟨number, .bulk, at_⟩ → s.brd.bulkMinimum ≤ code.toNat * 16 →
      ∃ t, exec (.channelArrival code) s = .next t
        ∧ t.supply.railAllotment = (sumSockets fun k => railShare s k .core + railShare s k .aux)
        ∧ (t.supply.railAllotment ≤ s.bulkLimit →
          t.supply.overload = 0 ∧ t.orders = s.orders ∧ t.sockets = s.sockets)
        ∧ (s.bulkLimit < t.supply.railAllotment → s.supply.overload = 0 →
          t.supply.overload = 1 ∧ t.orders = s.orders ∧ t.sockets = s.sockets)
        ∧ (s.bulkLimit < t.supply.railAllotment → s.supply.overload ≠ 0 →
          t.supply.overload = 0
          ∧ ((∀ k, (s.sock k).state ≠ .stressing) → t.orders = s.orders ∧ t.sockets = s.sockets)
          ∧ ∀ k, Sheds k s →
            (t.orders = s.orders ++ [⟨k, .toShedHold⟩] ∧ t.sockets = s.sockets)
            ∨ (t.orders = s.orders
              ∧ t.sockets = put s.sockets k (stoppedRecord .toShedHold (s.sock k))))

/-! ### Stimulus bursts (R101 to R117) -/

/-- SetSlot's checks in order and its effect (R102). -/
def Obligations.SetSlotWritesAnIdleSlot : Prop :=
  ∀ (n : Byte) (v : SlotValues) (s : State), s.resetting = none →
    (7 < n.toNat → Refuses (.setSlot n v) s .range)
    ∧ ∀ i : SlotId, i.val = n.toNat →
      ((s.slot i).state ≠ .idle → Refuses (.setSlot n v) s .busy)
      ∧ ((s.slot i).state = .idle →
          63 < v.pattern.toNat ∨ v.length.toNat = 0 ∨ 2 < v.dispatch.toNat ∨ 1 < v.retry.toNat
            ∨ (runningMode s.mode = true ∧ v.edgeMax.toNat < v.edgeMin.toNat) →
          Refuses (.setSlot n v) s .range)
      ∧ ((s.slot i).state = .idle → v.pattern.toNat ≤ 63 → 0 < v.length.toNat →
          (runningMode s.mode = true → v.edgeMin.toNat ≤ v.edgeMax.toNat) →
          ∀ (d : Dispatch) (r : Retry), d.code = v.dispatch.toNat → r.code = v.retry.toNat →
          let x : Slot :=
            { pattern := v.pattern.toNat
              length := v.length.toNat
              mask := v.mask
              dispatch := d
              retry := r
              edgeMin := v.edgeMin.toNat
              edgeMax := v.edgeMax.toNat
              state := .idle
              resends := 0
              abortMark := false
              sent := 0
              errors := 0
              missed := 0
              skipped := 0
              last := .none }
          exec (.setSlot n v) s = .next { s with
            slots := put s.slots i x, answer := some ⟨.ok, slotBytes i x⟩ })

/-- SendSlot (R103) and the arbiter (R107 to R110): its checks; on a busy bus the slot is PENDING; on a
free bus the arbiter starts the lowest-numbered PENDING slot that reaches a socket; with no other slot PENDING
that is this one: ACTIVE, sent counted, the effective mask selected, the end
after ceiling(length × vector period / 1000) µs, a window notice for each socket of the mask; with an
empty mask it is skipped. -/
def Obligations.SendSlotDispatchesAndTheArbiterStarts : Prop :=
  ∀ (n : Byte) (s : State), s.resetting = none →
    (7 < n.toNat → Refuses (.sendSlot n) s .range)
    ∧ ∀ i : SlotId, i.val = n.toNat →
      let x : Slot := { s.slot i with resends := 0, abortMark := false, state := .pending }
      let reached (k : Socket) : Bool :=
        inSet x.mask k && decide ((s.sock k).state = .stressing)
      let micros : Nat := (x.length * s.brd.vectorPeriod + 999) / 1000
      let closeAt : Nat := s.now + micros + 1000 * s.brd.latency
      let note : Contribution := ⟨i, x.edgeMin, x.edgeMax⟩
      let told : Option Answer := some ⟨.ok, [1#8]⟩
      (s.mode ≠ .run → Refuses (.sendSlot n) s .wrongMode)
      ∧ (s.mode = .run → (s.slot i).state ≠ .idle → Refuses (.sendSlot n) s .busy)
      ∧ (s.mode = .run → (s.slot i).state = .idle → s.bus ≠ none →
          exec (.sendSlot n) s = .next { s with slots := put s.slots i x, answer := told })
      ∧ (s.mode = .run → (s.slot i).state = .idle →
          ∃ t, exec (.sendSlot n) s = .next t
            ∧ Arbitrated { s with slots := put s.slots i x, answer := told } t)
      ∧ (s.mode = .run → (s.slot i).state = .idle → s.bus = none →
          (∀ j, (s.slot j).state ≠ .pending) →
          ((∀ k, reached k = false) →
            exec (.sendSlot n) s = .next { s with
              slots := put s.slots i
                { x with state := .idle, skipped := satAdd 65535 x.skipped 1 }
              answer := told })
          ∧ ((∃ k, reached k = true) →
              exec (.sendSlot n) s = .next { s with
                slots := put s.slots i { x with state := .active, sent := satAdd 65535 x.sent 1 }
                bus := some ⟨i, setOf reached, s.now + micros⟩
                storeCommand := some (.play x.pattern x.length)
                mon := tab16 fun k => if reached k = true then
                    { look s.mon k with window := match (look s.mon k).window with
                      | none => some ⟨0, 0, 0, 0, some note, closeAt⟩
                      | some w => some { w with waiting := some note, closeAt := closeAt } }
                  else look s.mon k
                answer := told }))

/-- AbortSlot by the slot's state; accepted in every mode (R114). -/
def Obligations.AbortSlotCancelsADispatch : Prop :=
  ∀ (n : Byte) (s : State), s.resetting = none →
    (7 < n.toNat → Refuses (.abortSlot n) s .range)
    ∧ ∀ i : SlotId, i.val = n.toNat →
      let after (x : Slot) : State :=
        { s with
          slots := put s.slots i x
          answer := some ⟨.ok, put1 x.state.code ++ putFlag x.abortMark⟩ }
      ((s.slot i).state = .idle → exec (.abortSlot n) s = .next (after (s.slot i)))
      ∧ ((s.slot i).state = .pending → exec (.abortSlot n) s
          = .next (after { s.slot i with state := .idle, last := .aborted, abortMark := true }))
      ∧ ((s.slot i).state = .active → exec (.abortSlot n) s
          = .next (after { s.slot i with abortMark := true }))

/-- SetTimers (R105) writes both intervals or none and moves no timer; a RUNNING timer's expiry (R106)
dispatches its IDLE slots, counts a miss on the others and reloads, and the arbiter decides (R107, R108); a
timer that does not run does not expire (the model's choice, log 13), and one that runs expires also before its
time (log 4). -/
def Obligations.DispatchTimersExpireAndReload : Prop :=
  ∀ (interval0 interval1 : Word) (x : TimerId) (s : State), s.resetting = none →
    let sound (v : Word) : Prop := v.toNat = 0 ∨ (50 ≤ v.toNat ∧ v.toNat ≤ 600000)
    let next : Timer :=
      if 0 < intervalOf x s then .running (s.now + 1000 * intervalOf x s) else .stopped
    let dispatched : State := { s with
      slots := tab8 fun i =>
        if (s.slot i).dispatch ≠ timerDispatch x then s.slot i
        else if (s.slot i).state = .idle then
          { s.slot i with resends := 0, abortMark := false, state := .pending }
        else { s.slot i with missed := satAdd 65535 (s.slot i).missed 1 }
      timers := match x with
        | .timer0 => { s.timers with timer0 := next }
        | .timer1 => { s.timers with timer1 := next } }
    (¬(sound interval0 ∧ sound interval1) → Refuses (.setTimers interval0 interval1) s .range)
    ∧ (sound interval0 → sound interval1 →
        ∃ t p, exec (.setTimers interval0 interval1) s = .next t ∧ t.answer = some ⟨.ok, p⟩
          ∧ p.length = 18
          ∧ t = { s with
              answer := t.answer
              draws := t.draws
              board := { s.board with host := { s.board.host with
                interval0 := interval0.toNat, interval1 := interval1.toNat } } })
    ∧ ((∀ d, timerOf x s ≠ .running d) → exec (.dispatchTimerExpiry x) s = .next s)
    ∧ (∀ d, timerOf x s = .running d →
        ∃ t, exec (.dispatchTimerExpiry x) s = .next t ∧ Arbitrated dispatched t
          ∧ (s.bus ≠ none ∨ s.mode ≠ .run → t = dispatched))

/-- BURST_END (R111, R112, R123, R124): OK: DELIVERED, contributions confirmed. ERROR: counted, contributions
withdrawn, the slot resent in RUN and PAUSE or closed with FAILED. The bus is then free and the arbiter decides
(R107, R108); where nothing waits nothing more happens. On a free bus there is no burst to end (the model's
choice, log 13), and an end before the burst's time is taken (log 37). -/
def Obligations.BurstEndsConfirmOrWithdraw : Prop :=
  ∀ (b : Burst) (s : State), s.resetting = none → s.bus = some b →
    let x := s.slot b.slot
    let wrong : Slot := { x with errors := satAdd 65535 x.errors 1 }
    let confirmed (w : Window) : Window := match w.waiting with
      | some c => { w with
          confirmedMin := satAdd 65535 w.confirmedMin c.minimum
          confirmedMax := satAdd 65535 w.confirmedMax c.maximum
          confirmed := satAdd 65535 w.confirmed 1
          waiting := none }
      | none => w
    let withdrawn (w : Window) : Option Window :=
      if w.confirmed = 0 then none else some { w with waiting := none }
    let monAfter (f : Window → Option Window) : Tab Monitor := tab16 fun k =>
      if inSet b.mask k = true then { look s.mon k with window := (look s.mon k).window.bind f }
      else look s.mon k
    let alone : Prop := (∀ j, j ≠ b.slot → (s.slot j).state ≠ .pending) ∨ s.mode ≠ .run
    let ended (y : Slot) (f : Window → Option Window) : State :=
      { s with bus := none, slots := put s.slots b.slot y, mon := monAfter f }
    let delivered : State := ended { x with last := .delivered, state := .idle } fun w => some (confirmed w)
    let closed : State := ended { wrong with last := .failed, state := .idle } withdrawn
    let resent : State := ended { wrong with resends := x.resends + 1, state := .pending } withdrawn
    let final : Prop := x.retry ≠ .resend ∨ 3 ≤ x.resends ∨ x.abortMark = true
      ∨ (s.mode ≠ .run ∧ s.mode ≠ .pause)
    let again : Prop := x.retry = .resend ∧ x.resends < 3 ∧ x.abortMark = false
    (∃ t, exec (.burstEnd true) s = .next t ∧ Arbitrated delivered t ∧ (alone → t = delivered))
    ∧ (final → ∃ t, exec (.burstEnd false) s = .next t ∧ Arbitrated closed t ∧ (alone → t = closed))
    ∧ (again → s.mode = .pause → exec (.burstEnd false) s = .next resent)
    ∧ (again → s.mode = .run → ∃ t, exec (.burstEnd false) s = .next t ∧ Arbitrated resent t)
    ∧ (∀ d, exec (.burstEnd d) { s with bus := none } = .next { s with bus := none })

/-! ### Activity and alarms (R118 to R131) -/

/-- A monitor edge (R120) counts in an open window by the edge selection; a first level is no edge, and a
close without a window changes nothing (the model's choices, log 13); the close of a window judges it (R126,
R127), and the fail is taken at once (R125; the model's reading, log 39). -/
def Obligations.EdgesAreCountedAndWindowsJudged : Prop :=
  ∀ (k : Socket) (lvl : LineLevel) (s : State), s.resetting = none →
    let m := look s.mon k
    let counted : Bool := match (s.sock k).params.edge, lvl with
      | .rise, .high | .fall, .low | .both, _ => true
      | .rise, .low | .fall, .high => false
    let unused : Prop := s.board.attach ≠ .attached ∨ inSet s.brd.population k = false
    (unused ∨ m.level = some lvl → exec (.monitorEdge k lvl) s = .next s)
    ∧ (¬unused → m.level = none → exec (.monitorEdge k lvl) s = .next { s with
        mon := put s.mon k { m with level := some lvl } })
    ∧ (¬unused → ∀ old, m.level = some old → old ≠ lvl →
        exec (.monitorEdge k lvl) s = .next { s with
          mon := put s.mon k
            { m with
              level := some lvl
              window := if counted = true then
                  m.window.map fun w => { w with edges := satAdd 65535 w.edges 1 }
                else m.window } })
    ∧ (m.window = none → exec (.windowClose k) s = .next s)
    ∧ (∀ w, m.window = some w →
        let fails (d : Direction) : State := takeFail ⟨k, .activity, BitVec.ofNat 16 w.edges, some d⟩
          { s with mon := put s.mon k { m with window := none } }
        (w.edges < w.confirmedMin → exec (.windowClose k) s = .next (fails .low))
        ∧ (w.confirmedMin ≤ w.edges → w.confirmedMax < w.edges →
            exec (.windowClose k) s = .next (fails .high))
        ∧ (w.confirmedMin ≤ w.edges → w.edges ≤ w.confirmedMax →
            exec (.windowClose k) s = .next { s with
              mon := put s.mon k { m with window := none }
              sockets := put s.sockets k { s.sock k with lastPass := some s.runClock } }))

/-- Alarm levels (R128), the alarm enables (R129) and the reading and clearing of the latches (R130). A level
taken where none was held is no edge (the model's choice, log 13); the fail of an edge is taken at once (the
model's reading, log 39). -/
def Obligations.AlarmsAreLatchedReportedAndRead : Prop :=
  ∀ (k : Socket) (lvl : LineLevel) (latch report clears : Half) (s : State), s.resetting = none →
    let m := look s.mon k
    let p := (s.sock k).params
    let new : AlarmLevel :=
      if inSet s.brd.alarmHigh k = decide (lvl = .high) then .active else .inactive
    let unused : Prop := s.board.attach ≠ .attached ∨ inSet s.brd.population k = false
    let edge : Prop := m.alarm = some .inactive ∧ new = .active ∧ p.latchEnable = true
    (unused → exec (.alarmLevelTaken k lvl) s = .next s)
    ∧ (¬unused → ¬edge → exec (.alarmLevelTaken k lvl) s
        = .next { s with mon := put s.mon k { m with alarm := some new } })
    ∧ (¬unused → edge →
        let latched : State :=
          { s with mon := put s.mon k { m with alarm := some new, latch := true } }
        exec (.alarmLevelTaken k lvl) s = .next (if p.reportEnable = true ∧ s.live k = true then
            takeFail ⟨k, .dutAlarm, 0#16, none⟩ latched else latched))
    ∧ (s.board.attach = .attaching → Refuses (.setAlarmEnables latch report) s .busy)
    ∧ (s.board.attach ≠ .attaching →
        exec (.setAlarmEnables latch report) s = .next { s with
          sockets := tab16 fun j => { s.sock j with params :=
            { (s.sock j).params with
              latchEnable := inSet latch j, reportEnable := inSet report j } }
          answer := some ⟨.ok, putSet latch ++ putSet report⟩ })
    ∧ exec (.readAlarms clears) s = .next { s with
        mon := tab16 fun j =>
          { look s.mon j with latch := (look s.mon j).latch && !inSet clears j }
        answer := some ⟨.ok, putSet (setOf fun j => (look s.mon j).latch)
          ++ putSet (setOf fun j => decide ((look s.mon j).alarm = some .active))
          ++ putSet (setOf fun j => (look s.mon j).alarm.isSome)⟩ }

/-! ### Fail handling (R132 to R146) -/

/-- A fail by the socket's state (R136 to R139, R141): discarded, or counted, acted on by the policy and
logged, all in one event. FAIL_TAKEN takes a fail off the list of those in flight, which is the model's
(log 5); the fails of the Heater Controller and the Activity Monitor are taken in the event that raises them
(log 39). -/
def Obligations.FailsAreCountedActedOnAndLogged : Prop :=
  ∀ (f : FailMsg) (s : State),
    let i := kindIndex f.kind
    let r := s.sock f.socket
    let e := look s.policy i
    let counted : SocketRecord :=
      { r with
        cumulative := put r.cumulative i (satAdd 65535 (look r.cumulative i) 1)
        episode := put r.episode i (satAdd 255 (look r.episode i) 1)
        firstFail := if r.firstFail = none then some ⟨f.kind, s.runClock⟩ else r.firstFail
        lastFail := some ⟨f.kind, s.runClock⟩ }
    let reached : Prop := e.threshold ≤ satAdd 255 (look r.episode i) 1
    let taken : State := { s with sockets := put s.sockets f.socket counted }
    let entry (a : LogAction) : LogEntry :=
      ⟨f.socket, f.kind, f.direction, f.detail, s.runClock, a, 1⟩
    (s.resetting = none →
      exec (.failTaken f) s = .next (takeFail f { s with fails := s.fails.erase f }))
    ∧ (s.busy f.socket = false → takeFail f s = s)
    ∧ (s.live f.socket = true → e.action = .count ∨ ¬reached →
        takeFail f s = storeEntry (entry .none) taken)
    ∧ (s.live f.socket = true → e.action = .hold → reached →
        ∃ t, takeFail f s = storeEntry (entry .hold) t
          ∧ Stops f.socket (.toPolicyHold f.kind) taken t ∧ StopFrame taken t
          ∧ t.orders = s.orders ∧ t.answer = s.answer)
    ∧ (s.live f.socket = true → e.action = .retire → reached →
        ∃ t, takeFail f s = storeEntry (entry .retire) t
          ∧ Stops f.socket (.toRetired f.kind) taken t ∧ StopFrame taken t
          ∧ t.orders = s.orders ∧ t.answer = s.answer)
    ∧ (r.state = .stopping → e.action = .retire → reached → r.stopDest ≠ some .retired →
        takeFail f s = storeEntry (entry .retire) { taken with
          sockets := put s.sockets f.socket { counted with
            stopDest := some .retired, holdReason := none, retireKind := some f.kind } })
    ∧ (r.state = .stopping → e.action ≠ .retire ∨ ¬reached ∨ r.stopDest = some .retired →
        takeFail f s = storeEntry (entry .late) taken)

/-- The three ways of storing a log entry (R141). -/
def Obligations.EntriesCoalesceAppendOrDrop : Prop :=
  ∀ (e : LogEntry) (s : State),
    let merges (x : LogEntry) : Prop := x.socket = e.socket ∧ x.kind = e.kind ∧ x.action = .none
      ∧ e.action = .none ∧ x.repeats < 255
    (∀ older x, s.log = older ++ [x] → merges x →
      storeEntry e s = { s with log := older ++ [{ x with repeats := x.repeats + 1 }] })
    ∧ ((∀ older x, s.log = older ++ [x] → ¬merges x) → s.log.length < 64 →
        storeEntry e s = { s with log := s.log ++ [e] })
    ∧ ((∀ older x, s.log = older ++ [x] → ¬merges x) → 64 ≤ s.log.length →
        storeEntry e s = { s with
          sockets := put s.sockets e.socket
            { s.sock e.socket with unlogged := satAdd 255 (s.sock e.socket).unlogged 1 } })

/-- Log and counts account for every fail (R143): a fail of a running or stopping socket raises the sum of
its cumulative counts by 1, and the fails its log entries record plus its unlogged count by 1, short of
the ceilings. -/
def Obligations.EveryFailIsAccountedFor : Prop :=
  ∀ (f : FailMsg) (s : State), s.resetting = none → s.busy f.socket = true →
    look (s.sock f.socket).cumulative (kindIndex f.kind) < 65535 →
    (s.sock f.socket).unlogged < 255 →
    ∃ t, exec (.failTaken f) s = .next t
      ∧ cumulativeSum (t.sock f.socket) = cumulativeSum (s.sock f.socket) + 1
      ∧ recorded f.socket t.log + (t.sock f.socket).unlogged
          = recorded f.socket s.log + (s.sock f.socket).unlogged + 1
      ∧ ∀ j, j ≠ f.socket → recorded j t.log = recorded j s.log ∧ t.sock j = s.sock j

/-- ReadFails removes and returns the oldest min(n, depth) entries (R144). -/
def Obligations.ReadFailsTakesTheOldestEntries : Prop :=
  ∀ (n : Byte) (s : State), s.resetting = none →
    (n.toNat = 0 ∨ 8 < n.toNat → Refuses (.readFails n) s .range)
    ∧ (1 ≤ n.toNat → n.toNat ≤ 8 →
        exec (.readFails n) s = .next { s with
          log := s.log.drop (min n.toNat s.log.length)
          answer := some ⟨.ok, put1 (min n.toNat s.log.length)
            ++ (s.log.take (min n.toNat s.log.length)).flatMap putEntry
            ++ put1 (s.log.length - min n.toNat s.log.length)⟩ })

/-- SetPolicy's checks in order, its adjustments for OVERCURRENT and OVERTEMP and its effect (R134);
GetPolicy reads the table in kind-code order (R135). -/
def Obligations.SetPolicyKeepsTheStricterForm : Prop :=
  ∀ (kind action threshold bin : Byte) (s : State), s.resetting = none →
    let refused (r : Result) : Prop := Refuses (.setPolicy kind action threshold bin) s r
    (s.mode ≠ .config → refused .wrongMode)
    ∧ (s.mode = .config → 7 < kind.toNat ∨ 2 < action.toNat ∨ threshold.toNat = 0 ∨ bin.toNat < 2
        ∨ 15 < bin.toNat → refused .range)
    ∧ (s.mode = .config → ∀ (f : FailKind) (a : PolicyAction), (kindIndex f).val = kind.toNat →
        a.code = action.toNat → 1 ≤ threshold.toNat → 2 ≤ bin.toNat → bin.toNat ≤ 15 →
        let strict : Prop := f = .overcurrent ∨ f = .overtemp
        ∃ e : PolicyEntry,
          (strict → e = ⟨if a = .count then .hold else a, 1, bin.toNat⟩)
          ∧ (¬strict → e = ⟨a, threshold.toNat, bin.toNat⟩)
          ∧ exec (.setPolicy kind action threshold bin) s = .next { s with
              policy := put s.policy (kindIndex f) e
              answer := some ⟨.ok, put1 e.action.code ++ put1 e.threshold ++ put1 e.bin⟩ })
    ∧ exec .getPolicy s = .next { s with answer := some ⟨.ok,
        (List.ofFn fun i : Fin 8 => put1 (look s.policy i).action.code
          ++ put1 (look s.policy i).threshold ++ put1 (look s.policy i).bin).flatten⟩ }

/-! ### Stress credit (R147 to R154) -/

/-- A tick (R148 to R153, R10): with the clock held there is none; in PAUSE and SHUTDOWN the clock alone
advances; in RUN the hold timers are lowered, and every STRESSING socket is tested by the four conditions
in order, credited with the weight of its band, and ordered to DONE when it has reached its target. Time
as deadlines and the pending expiry are the model's (log 2, 7). -/
def Obligations.TicksTestCreditAndLowerHolds : Prop :=
  ∀ s : State, s.resetting = none →
    let time := if s.runClock < 4294967295 then s.runClock + 1 else s.runClock
    let host := s.board.host
    (s.nextTick = none → exec .tick s = .next s)
    ∧ (s.nextTick ≠ none → s.mode ≠ .run → exec .tick s = .next { s with
        runClock := time, nextTick := some (s.now + 1000000) })
    ∧ (s.nextTick ≠ none → s.mode = .run → ∃ t, exec .tick s = .next t
        ∧ t = { s with
            runClock := time
            nextTick := some (s.now + 1000000)
            sockets := t.sockets
            tickResult := t.tickResult
            orders := t.orders }
        ∧ t.orders = s.orders ++ (allSockets.filter fun k =>
            (match (s.sock k).state, look t.tickResult k with
            | .stressing, some (.qualified _) => decide (0 < (s.sock k).stressTarget
                ∧ (s.sock k).stressTarget * 256 ≤ (t.sock k).credit)
            | _, _ => false)).map (fun k => ⟨k, .toDone⟩)
        ∧ ∀ k,
          ((s.sock k).state ≠ .stressing → look t.tickResult k = look s.tickResult k)
          ∧ ((s.sock k).state ≠ .held → (s.sock k).state ≠ .stressing → t.sock k = s.sock k)
          ∧ ((s.sock k).state = .held →
              ((s.sock k).holdReason = some .safe ∨ (s.sock k).holdReason = none
                ∨ (s.sock k).holdTime = none ∨ (s.sock k).holdTime = some 0 → t.sock k = s.sock k)
              ∧ ∀ h, (s.sock k).holdReason = some .policy ∨ (s.sock k).holdReason = some .shed →
                (s.sock k).holdTime = some (h + 1) →
                t.sock k = { s.sock k with
                  holdTime := some h, expiryDue := (s.sock k).expiryDue || decide (h = 0) })
          ∧ ((s.sock k).state = .stressing →
              let bothOn : Prop := (s.rail k .core).state = .on ∧ (s.rail k .aux).state = .on
              let recent : Prop := host.activityAge = 0
                ∨ ∃ p, (s.sock k).lastPass = some p ∧ time ≤ p + host.activityAge
              (s.validTemp k = none →
                look t.tickResult k = some .noTemp ∧ t.sock k = s.sock k)
              ∧ ∀ x, s.validTemp k = some x →
                let inBand : Prop := (x - (s.sock k).params.target).natAbs ≤ host.stressBand
                (¬inBand → look t.tickResult k = some .outOfBand ∧ t.sock k = s.sock k)
                ∧ (inBand → ¬bothOn → look t.tickResult k = some .rails ∧ t.sock k = s.sock k)
                ∧ (inBand → bothOn → ¬recent →
                    look t.tickResult k = some .noActivity ∧ t.sock k = s.sock k)
                ∧ (inBand → bothOn → recent → ∃ band : Fin 8,
                    (band.val : Int) = clampInt 0 7 ((x - host.refTemp) / host.weightStep + 4)
                    ∧ look t.tickResult k = some (.qualified band)
                    ∧ t.sock k = { s.sock k with
                        credit := min 4294967295 ((s.sock k).credit + look host.weights band) })))

/-- Credit moves as R152 says, at every step: it stands, or it rises in RUN while the socket is STRESSING,
or it is cleared to 0. -/
def Obligations.CreditNeverFallsButWhenCleared : Prop :=
  ∀ s t : State, (∀ k, (s.sock k).credit ≤ 4294967295) → StepsTo s t →
    ∀ k, (t.sock k).credit ≤ 4294967295
      ∧ ((t.sock k).credit = (s.sock k).credit
        ∨ ((s.sock k).credit < (t.sock k).credit ∧ s.mode = .run ∧ (s.sock k).state = .stressing)
        ∨ (t.sock k).credit = 0)

/-! ### Invariants of every step -/

/-- Sockets run in RUN, PAUSE and SHUTDOWN alone, and these modes hold in ATTACHED alone. -/
def Obligations.EveryStepKeepsRunningInRunningModes : Prop :=
  ∀ s t : State, RunOk s → StepsTo s t → RunOk t

/-- A rail is out of OFF, and a run present, only while its socket is STARTING, STRESSING or STOPPING
(R47). -/
def Obligations.EveryStepKeepsRailsOffOutsideRuns : Prop :=
  ∀ s t : State, RunOk s → RailsOk s → StepsTo s t → RailsOk t

/-- Demand, duties and heater outputs are nonzero only while the socket is STARTING or STRESSING (R71). -/
def Obligations.EveryStepKeepsHeatersOffOutsideRuns : Prop :=
  ∀ s t : State, RunOk s → HeatOk s → StepsTo s t → HeatOk t

/-- A socket has an activity window only while it is STRESSING (R125). -/
def Obligations.EveryStepKeepsWindowsInStressing : Prop :=
  ∀ s t : State, RunOk s → WindowOk s → StepsTo s t → WindowOk t

/-- At most one burst is on the bus, and its slot is the one ACTIVE slot (R107). -/
def Obligations.EveryStepKeepsOneBurstOnTheBus : Prop :=
  ∀ s t : State, BusOk s → StepsTo s t → BusOk t

/-- The fail log holds at most 64 entries with repeat counts from 1 to 255 (R142), and the policy table
stays in its ranges with the stricter form of OVERCURRENT and OVERTEMP (R133). -/
def Obligations.EveryStepKeepsLogAndPolicyInRange : Prop :=
  ∀ s t : State, StepsTo s t → (LogOk s → LogOk t) ∧ (PolicyOk s → PolicyOk t)

/-- The number of rails in RISING never exceeds the inrush limit (R55). -/
def Obligations.EveryStepKeepsRisesWithinTheInrushLimit : Prop :=
  ∀ s t : State, RunOk s → RailsOk s → RisingOk s → StepsTo s t → RisingOk t
end

