-- ==== Sys2Proof/Laws/State.lean ====
section
/-! SUPPORT. One lemma per field of the state for each named update, so that no later proof unfolds a
record update. -/

namespace Sys2Proof.Machine.State

/-! ### modSock -/

@[simp] theorem modSock_now (s : State) (k : Socket) (f : SocketRecord → SocketRecord) :
    (s.modSock k f).now = s.now := rfl
@[simp] theorem modSock_resetting (s : State) (k : Socket) (f : SocketRecord → SocketRecord) :
    (s.modSock k f).resetting = s.resetting := rfl
@[simp] theorem modSock_restart (s : State) (k : Socket) (f : SocketRecord → SocketRecord) :
    (s.modSock k f).restart = s.restart := rfl
@[simp] theorem modSock_mode (s : State) (k : Socket) (f : SocketRecord → SocketRecord) :
    (s.modSock k f).mode = s.mode := rfl
@[simp] theorem modSock_safeCause (s : State) (k : Socket) (f : SocketRecord → SocketRecord) :
    (s.modSock k f).safeCause = s.safeCause := rfl
@[simp] theorem modSock_ovenOk (s : State) (k : Socket) (f : SocketRecord → SocketRecord) :
    (s.modSock k f).ovenOk = s.ovenOk := rfl
@[simp] theorem modSock_bulkLow (s : State) (k : Socket) (f : SocketRecord → SocketRecord) :
    (s.modSock k f).bulkLow = s.bulkLow := rfl
@[simp] theorem modSock_sockets (s : State) (k : Socket) (f : SocketRecord → SocketRecord) :
    (s.modSock k f).sockets = put s.sockets k (f (look s.sockets k)) := rfl
@[simp] theorem modSock_board (s : State) (k : Socket) (f : SocketRecord → SocketRecord) :
    (s.modSock k f).board = s.board := rfl
@[simp] theorem modSock_scan (s : State) (k : Socket) (f : SocketRecord → SocketRecord) :
    (s.modSock k f).scan = s.scan := rfl
@[simp] theorem modSock_rails (s : State) (k : Socket) (f : SocketRecord → SocketRecord) :
    (s.modSock k f).rails = s.rails := rfl
@[simp] theorem modSock_profiles (s : State) (k : Socket) (f : SocketRecord → SocketRecord) :
    (s.modSock k f).profiles = s.profiles := rfl
@[simp] theorem modSock_runs (s : State) (k : Socket) (f : SocketRecord → SocketRecord) :
    (s.modSock k f).runs = s.runs := rfl
@[simp] theorem modSock_rflt (s : State) (k : Socket) (f : SocketRecord → SocketRecord) :
    (s.modSock k f).rflt = s.rflt := rfl
@[simp] theorem modSock_heat (s : State) (k : Socket) (f : SocketRecord → SocketRecord) :
    (s.modSock k f).heat = s.heat := rfl
@[simp] theorem modSock_active (s : State) (k : Socket) (f : SocketRecord → SocketRecord) :
    (s.modSock k f).active = s.active := rfl
@[simp] theorem modSock_heaterOn (s : State) (k : Socket) (f : SocketRecord → SocketRecord) :
    (s.modSock k f).heaterOn = s.heaterOn := rfl
@[simp] theorem modSock_heaterOff (s : State) (k : Socket) (f : SocketRecord → SocketRecord) :
    (s.modSock k f).heaterOff = s.heaterOff := rfl
@[simp] theorem modSock_nextCarrier (s : State) (k : Socket) (f : SocketRecord → SocketRecord) :
    (s.modSock k f).nextCarrier = s.nextCarrier := rfl
@[simp] theorem modSock_supply (s : State) (k : Socket) (f : SocketRecord → SocketRecord) :
    (s.modSock k f).supply = s.supply := rfl
@[simp] theorem modSock_slots (s : State) (k : Socket) (f : SocketRecord → SocketRecord) :
    (s.modSock k f).slots = s.slots := rfl
@[simp] theorem modSock_timers (s : State) (k : Socket) (f : SocketRecord → SocketRecord) :
    (s.modSock k f).timers = s.timers := rfl
@[simp] theorem modSock_bus (s : State) (k : Socket) (f : SocketRecord → SocketRecord) :
    (s.modSock k f).bus = s.bus := rfl
@[simp] theorem modSock_storeCommand (s : State) (k : Socket) (f : SocketRecord → SocketRecord) :
    (s.modSock k f).storeCommand = s.storeCommand := rfl
@[simp] theorem modSock_mon (s : State) (k : Socket) (f : SocketRecord → SocketRecord) :
    (s.modSock k f).mon = s.mon := rfl
@[simp] theorem modSock_policy (s : State) (k : Socket) (f : SocketRecord → SocketRecord) :
    (s.modSock k f).policy = s.policy := rfl
@[simp] theorem modSock_log (s : State) (k : Socket) (f : SocketRecord → SocketRecord) :
    (s.modSock k f).log = s.log := rfl
@[simp] theorem modSock_runClock (s : State) (k : Socket) (f : SocketRecord → SocketRecord) :
    (s.modSock k f).runClock = s.runClock := rfl
@[simp] theorem modSock_nextTick (s : State) (k : Socket) (f : SocketRecord → SocketRecord) :
    (s.modSock k f).nextTick = s.nextTick := rfl
@[simp] theorem modSock_tickResult (s : State) (k : Socket) (f : SocketRecord → SocketRecord) :
    (s.modSock k f).tickResult = s.tickResult := rfl
@[simp] theorem modSock_link (s : State) (k : Socket) (f : SocketRecord → SocketRecord) :
    (s.modSock k f).link = s.link := rfl
@[simp] theorem modSock_answer (s : State) (k : Socket) (f : SocketRecord → SocketRecord) :
    (s.modSock k f).answer = s.answer := rfl
@[simp] theorem modSock_fails (s : State) (k : Socket) (f : SocketRecord → SocketRecord) :
    (s.modSock k f).fails = s.fails := rfl
@[simp] theorem modSock_orders (s : State) (k : Socket) (f : SocketRecord → SocketRecord) :
    (s.modSock k f).orders = s.orders := rfl
@[simp] theorem modSock_draws (s : State) (k : Socket) (f : SocketRecord → SocketRecord) :
    (s.modSock k f).draws = s.draws := rfl
@[simp] theorem modSock_pending (s : State) (k : Socket) (f : SocketRecord → SocketRecord) :
    (s.modSock k f).pending = s.pending := rfl

/-! ### setRun -/

@[simp] theorem setRun_now (s : State) (k : Socket) (x : Option Run) :
    (s.setRun k x).now = s.now := rfl
@[simp] theorem setRun_resetting (s : State) (k : Socket) (x : Option Run) :
    (s.setRun k x).resetting = s.resetting := rfl
@[simp] theorem setRun_restart (s : State) (k : Socket) (x : Option Run) :
    (s.setRun k x).restart = s.restart := rfl
@[simp] theorem setRun_mode (s : State) (k : Socket) (x : Option Run) :
    (s.setRun k x).mode = s.mode := rfl
@[simp] theorem setRun_safeCause (s : State) (k : Socket) (x : Option Run) :
    (s.setRun k x).safeCause = s.safeCause := rfl
@[simp] theorem setRun_ovenOk (s : State) (k : Socket) (x : Option Run) :
    (s.setRun k x).ovenOk = s.ovenOk := rfl
@[simp] theorem setRun_bulkLow (s : State) (k : Socket) (x : Option Run) :
    (s.setRun k x).bulkLow = s.bulkLow := rfl
@[simp] theorem setRun_sockets (s : State) (k : Socket) (x : Option Run) :
    (s.setRun k x).sockets = s.sockets := rfl
@[simp] theorem setRun_board (s : State) (k : Socket) (x : Option Run) :
    (s.setRun k x).board = s.board := rfl
@[simp] theorem setRun_scan (s : State) (k : Socket) (x : Option Run) :
    (s.setRun k x).scan = s.scan := rfl
@[simp] theorem setRun_rails (s : State) (k : Socket) (x : Option Run) :
    (s.setRun k x).rails = s.rails := rfl
@[simp] theorem setRun_profiles (s : State) (k : Socket) (x : Option Run) :
    (s.setRun k x).profiles = s.profiles := rfl
@[simp] theorem setRun_runs (s : State) (k : Socket) (x : Option Run) :
    (s.setRun k x).runs = put s.runs k x := rfl
@[simp] theorem setRun_rflt (s : State) (k : Socket) (x : Option Run) :
    (s.setRun k x).rflt = s.rflt := rfl
@[simp] theorem setRun_heat (s : State) (k : Socket) (x : Option Run) :
    (s.setRun k x).heat = s.heat := rfl
@[simp] theorem setRun_active (s : State) (k : Socket) (x : Option Run) :
    (s.setRun k x).active = s.active := rfl
@[simp] theorem setRun_heaterOn (s : State) (k : Socket) (x : Option Run) :
    (s.setRun k x).heaterOn = s.heaterOn := rfl
@[simp] theorem setRun_heaterOff (s : State) (k : Socket) (x : Option Run) :
    (s.setRun k x).heaterOff = s.heaterOff := rfl
@[simp] theorem setRun_nextCarrier (s : State) (k : Socket) (x : Option Run) :
    (s.setRun k x).nextCarrier = s.nextCarrier := rfl
@[simp] theorem setRun_supply (s : State) (k : Socket) (x : Option Run) :
    (s.setRun k x).supply = s.supply := rfl
@[simp] theorem setRun_slots (s : State) (k : Socket) (x : Option Run) :
    (s.setRun k x).slots = s.slots := rfl
@[simp] theorem setRun_timers (s : State) (k : Socket) (x : Option Run) :
    (s.setRun k x).timers = s.timers := rfl
@[simp] theorem setRun_bus (s : State) (k : Socket) (x : Option Run) :
    (s.setRun k x).bus = s.bus := rfl
@[simp] theorem setRun_storeCommand (s : State) (k : Socket) (x : Option Run) :
    (s.setRun k x).storeCommand = s.storeCommand := rfl
@[simp] theorem setRun_mon (s : State) (k : Socket) (x : Option Run) :
    (s.setRun k x).mon = s.mon := rfl
@[simp] theorem setRun_policy (s : State) (k : Socket) (x : Option Run) :
    (s.setRun k x).policy = s.policy := rfl
@[simp] theorem setRun_log (s : State) (k : Socket) (x : Option Run) :
    (s.setRun k x).log = s.log := rfl
@[simp] theorem setRun_runClock (s : State) (k : Socket) (x : Option Run) :
    (s.setRun k x).runClock = s.runClock := rfl
@[simp] theorem setRun_nextTick (s : State) (k : Socket) (x : Option Run) :
    (s.setRun k x).nextTick = s.nextTick := rfl
@[simp] theorem setRun_tickResult (s : State) (k : Socket) (x : Option Run) :
    (s.setRun k x).tickResult = s.tickResult := rfl
@[simp] theorem setRun_link (s : State) (k : Socket) (x : Option Run) :
    (s.setRun k x).link = s.link := rfl
@[simp] theorem setRun_answer (s : State) (k : Socket) (x : Option Run) :
    (s.setRun k x).answer = s.answer := rfl
@[simp] theorem setRun_fails (s : State) (k : Socket) (x : Option Run) :
    (s.setRun k x).fails = s.fails := rfl
@[simp] theorem setRun_orders (s : State) (k : Socket) (x : Option Run) :
    (s.setRun k x).orders = s.orders := rfl
@[simp] theorem setRun_draws (s : State) (k : Socket) (x : Option Run) :
    (s.setRun k x).draws = s.draws := rfl
@[simp] theorem setRun_pending (s : State) (k : Socket) (x : Option Run) :
    (s.setRun k x).pending = s.pending := rfl

/-! ### modHeat -/

@[simp] theorem modHeat_now (s : State) (k : Socket) (f : HeatControl → HeatControl) :
    (s.modHeat k f).now = s.now := rfl
@[simp] theorem modHeat_resetting (s : State) (k : Socket) (f : HeatControl → HeatControl) :
    (s.modHeat k f).resetting = s.resetting := rfl
@[simp] theorem modHeat_restart (s : State) (k : Socket) (f : HeatControl → HeatControl) :
    (s.modHeat k f).restart = s.restart := rfl
@[simp] theorem modHeat_mode (s : State) (k : Socket) (f : HeatControl → HeatControl) :
    (s.modHeat k f).mode = s.mode := rfl
@[simp] theorem modHeat_safeCause (s : State) (k : Socket) (f : HeatControl → HeatControl) :
    (s.modHeat k f).safeCause = s.safeCause := rfl
@[simp] theorem modHeat_ovenOk (s : State) (k : Socket) (f : HeatControl → HeatControl) :
    (s.modHeat k f).ovenOk = s.ovenOk := rfl
@[simp] theorem modHeat_bulkLow (s : State) (k : Socket) (f : HeatControl → HeatControl) :
    (s.modHeat k f).bulkLow = s.bulkLow := rfl
@[simp] theorem modHeat_sockets (s : State) (k : Socket) (f : HeatControl → HeatControl) :
    (s.modHeat k f).sockets = s.sockets := rfl
@[simp] theorem modHeat_board (s : State) (k : Socket) (f : HeatControl → HeatControl) :
    (s.modHeat k f).board = s.board := rfl
@[simp] theorem modHeat_scan (s : State) (k : Socket) (f : HeatControl → HeatControl) :
    (s.modHeat k f).scan = s.scan := rfl
@[simp] theorem modHeat_rails (s : State) (k : Socket) (f : HeatControl → HeatControl) :
    (s.modHeat k f).rails = s.rails := rfl
@[simp] theorem modHeat_profiles (s : State) (k : Socket) (f : HeatControl → HeatControl) :
    (s.modHeat k f).profiles = s.profiles := rfl
@[simp] theorem modHeat_runs (s : State) (k : Socket) (f : HeatControl → HeatControl) :
    (s.modHeat k f).runs = s.runs := rfl
@[simp] theorem modHeat_rflt (s : State) (k : Socket) (f : HeatControl → HeatControl) :
    (s.modHeat k f).rflt = s.rflt := rfl
@[simp] theorem modHeat_heat (s : State) (k : Socket) (f : HeatControl → HeatControl) :
    (s.modHeat k f).heat = put s.heat k (f (look s.heat k)) := rfl
@[simp] theorem modHeat_active (s : State) (k : Socket) (f : HeatControl → HeatControl) :
    (s.modHeat k f).active = s.active := rfl
@[simp] theorem modHeat_heaterOn (s : State) (k : Socket) (f : HeatControl → HeatControl) :
    (s.modHeat k f).heaterOn = s.heaterOn := rfl
@[simp] theorem modHeat_heaterOff (s : State) (k : Socket) (f : HeatControl → HeatControl) :
    (s.modHeat k f).heaterOff = s.heaterOff := rfl
@[simp] theorem modHeat_nextCarrier (s : State) (k : Socket) (f : HeatControl → HeatControl) :
    (s.modHeat k f).nextCarrier = s.nextCarrier := rfl
@[simp] theorem modHeat_supply (s : State) (k : Socket) (f : HeatControl → HeatControl) :
    (s.modHeat k f).supply = s.supply := rfl
@[simp] theorem modHeat_slots (s : State) (k : Socket) (f : HeatControl → HeatControl) :
    (s.modHeat k f).slots = s.slots := rfl
@[simp] theorem modHeat_timers (s : State) (k : Socket) (f : HeatControl → HeatControl) :
    (s.modHeat k f).timers = s.timers := rfl
@[simp] theorem modHeat_bus (s : State) (k : Socket) (f : HeatControl → HeatControl) :
    (s.modHeat k f).bus = s.bus := rfl
@[simp] theorem modHeat_storeCommand (s : State) (k : Socket) (f : HeatControl → HeatControl) :
    (s.modHeat k f).storeCommand = s.storeCommand := rfl
@[simp] theorem modHeat_mon (s : State) (k : Socket) (f : HeatControl → HeatControl) :
    (s.modHeat k f).mon = s.mon := rfl
@[simp] theorem modHeat_policy (s : State) (k : Socket) (f : HeatControl → HeatControl) :
    (s.modHeat k f).policy = s.policy := rfl
@[simp] theorem modHeat_log (s : State) (k : Socket) (f : HeatControl → HeatControl) :
    (s.modHeat k f).log = s.log := rfl
@[simp] theorem modHeat_runClock (s : State) (k : Socket) (f : HeatControl → HeatControl) :
    (s.modHeat k f).runClock = s.runClock := rfl
@[simp] theorem modHeat_nextTick (s : State) (k : Socket) (f : HeatControl → HeatControl) :
    (s.modHeat k f).nextTick = s.nextTick := rfl
@[simp] theorem modHeat_tickResult (s : State) (k : Socket) (f : HeatControl → HeatControl) :
    (s.modHeat k f).tickResult = s.tickResult := rfl
@[simp] theorem modHeat_link (s : State) (k : Socket) (f : HeatControl → HeatControl) :
    (s.modHeat k f).link = s.link := rfl
@[simp] theorem modHeat_answer (s : State) (k : Socket) (f : HeatControl → HeatControl) :
    (s.modHeat k f).answer = s.answer := rfl
@[simp] theorem modHeat_fails (s : State) (k : Socket) (f : HeatControl → HeatControl) :
    (s.modHeat k f).fails = s.fails := rfl
@[simp] theorem modHeat_orders (s : State) (k : Socket) (f : HeatControl → HeatControl) :
    (s.modHeat k f).orders = s.orders := rfl
@[simp] theorem modHeat_draws (s : State) (k : Socket) (f : HeatControl → HeatControl) :
    (s.modHeat k f).draws = s.draws := rfl
@[simp] theorem modHeat_pending (s : State) (k : Socket) (f : HeatControl → HeatControl) :
    (s.modHeat k f).pending = s.pending := rfl

/-! ### modMon -/

@[simp] theorem modMon_now (s : State) (k : Socket) (f : Monitor → Monitor) :
    (s.modMon k f).now = s.now := rfl
@[simp] theorem modMon_resetting (s : State) (k : Socket) (f : Monitor → Monitor) :
    (s.modMon k f).resetting = s.resetting := rfl
@[simp] theorem modMon_restart (s : State) (k : Socket) (f : Monitor → Monitor) :
    (s.modMon k f).restart = s.restart := rfl
@[simp] theorem modMon_mode (s : State) (k : Socket) (f : Monitor → Monitor) :
    (s.modMon k f).mode = s.mode := rfl
@[simp] theorem modMon_safeCause (s : State) (k : Socket) (f : Monitor → Monitor) :
    (s.modMon k f).safeCause = s.safeCause := rfl
@[simp] theorem modMon_ovenOk (s : State) (k : Socket) (f : Monitor → Monitor) :
    (s.modMon k f).ovenOk = s.ovenOk := rfl
@[simp] theorem modMon_bulkLow (s : State) (k : Socket) (f : Monitor → Monitor) :
    (s.modMon k f).bulkLow = s.bulkLow := rfl
@[simp] theorem modMon_sockets (s : State) (k : Socket) (f : Monitor → Monitor) :
    (s.modMon k f).sockets = s.sockets := rfl
@[simp] theorem modMon_board (s : State) (k : Socket) (f : Monitor → Monitor) :
    (s.modMon k f).board = s.board := rfl
@[simp] theorem modMon_scan (s : State) (k : Socket) (f : Monitor → Monitor) :
    (s.modMon k f).scan = s.scan := rfl
@[simp] theorem modMon_rails (s : State) (k : Socket) (f : Monitor → Monitor) :
    (s.modMon k f).rails = s.rails := rfl
@[simp] theorem modMon_profiles (s : State) (k : Socket) (f : Monitor → Monitor) :
    (s.modMon k f).profiles = s.profiles := rfl
@[simp] theorem modMon_runs (s : State) (k : Socket) (f : Monitor → Monitor) :
    (s.modMon k f).runs = s.runs := rfl
@[simp] theorem modMon_rflt (s : State) (k : Socket) (f : Monitor → Monitor) :
    (s.modMon k f).rflt = s.rflt := rfl
@[simp] theorem modMon_heat (s : State) (k : Socket) (f : Monitor → Monitor) :
    (s.modMon k f).heat = s.heat := rfl
@[simp] theorem modMon_active (s : State) (k : Socket) (f : Monitor → Monitor) :
    (s.modMon k f).active = s.active := rfl
@[simp] theorem modMon_heaterOn (s : State) (k : Socket) (f : Monitor → Monitor) :
    (s.modMon k f).heaterOn = s.heaterOn := rfl
@[simp] theorem modMon_heaterOff (s : State) (k : Socket) (f : Monitor → Monitor) :
    (s.modMon k f).heaterOff = s.heaterOff := rfl
@[simp] theorem modMon_nextCarrier (s : State) (k : Socket) (f : Monitor → Monitor) :
    (s.modMon k f).nextCarrier = s.nextCarrier := rfl
@[simp] theorem modMon_supply (s : State) (k : Socket) (f : Monitor → Monitor) :
    (s.modMon k f).supply = s.supply := rfl
@[simp] theorem modMon_slots (s : State) (k : Socket) (f : Monitor → Monitor) :
    (s.modMon k f).slots = s.slots := rfl
@[simp] theorem modMon_timers (s : State) (k : Socket) (f : Monitor → Monitor) :
    (s.modMon k f).timers = s.timers := rfl
@[simp] theorem modMon_bus (s : State) (k : Socket) (f : Monitor → Monitor) :
    (s.modMon k f).bus = s.bus := rfl
@[simp] theorem modMon_storeCommand (s : State) (k : Socket) (f : Monitor → Monitor) :
    (s.modMon k f).storeCommand = s.storeCommand := rfl
@[simp] theorem modMon_mon (s : State) (k : Socket) (f : Monitor → Monitor) :
    (s.modMon k f).mon = put s.mon k (f (look s.mon k)) := rfl
@[simp] theorem modMon_policy (s : State) (k : Socket) (f : Monitor → Monitor) :
    (s.modMon k f).policy = s.policy := rfl
@[simp] theorem modMon_log (s : State) (k : Socket) (f : Monitor → Monitor) :
    (s.modMon k f).log = s.log := rfl
@[simp] theorem modMon_runClock (s : State) (k : Socket) (f : Monitor → Monitor) :
    (s.modMon k f).runClock = s.runClock := rfl
@[simp] theorem modMon_nextTick (s : State) (k : Socket) (f : Monitor → Monitor) :
    (s.modMon k f).nextTick = s.nextTick := rfl
@[simp] theorem modMon_tickResult (s : State) (k : Socket) (f : Monitor → Monitor) :
    (s.modMon k f).tickResult = s.tickResult := rfl
@[simp] theorem modMon_link (s : State) (k : Socket) (f : Monitor → Monitor) :
    (s.modMon k f).link = s.link := rfl
@[simp] theorem modMon_answer (s : State) (k : Socket) (f : Monitor → Monitor) :
    (s.modMon k f).answer = s.answer := rfl
@[simp] theorem modMon_fails (s : State) (k : Socket) (f : Monitor → Monitor) :
    (s.modMon k f).fails = s.fails := rfl
@[simp] theorem modMon_orders (s : State) (k : Socket) (f : Monitor → Monitor) :
    (s.modMon k f).orders = s.orders := rfl
@[simp] theorem modMon_draws (s : State) (k : Socket) (f : Monitor → Monitor) :
    (s.modMon k f).draws = s.draws := rfl
@[simp] theorem modMon_pending (s : State) (k : Socket) (f : Monitor → Monitor) :
    (s.modMon k f).pending = s.pending := rfl

/-! ### modSlot -/

@[simp] theorem modSlot_now (s : State) (i : SlotId) (f : Slot → Slot) :
    (s.modSlot i f).now = s.now := rfl
@[simp] theorem modSlot_resetting (s : State) (i : SlotId) (f : Slot → Slot) :
    (s.modSlot i f).resetting = s.resetting := rfl
@[simp] theorem modSlot_restart (s : State) (i : SlotId) (f : Slot → Slot) :
    (s.modSlot i f).restart = s.restart := rfl
@[simp] theorem modSlot_mode (s : State) (i : SlotId) (f : Slot → Slot) :
    (s.modSlot i f).mode = s.mode := rfl
@[simp] theorem modSlot_safeCause (s : State) (i : SlotId) (f : Slot → Slot) :
    (s.modSlot i f).safeCause = s.safeCause := rfl
@[simp] theorem modSlot_ovenOk (s : State) (i : SlotId) (f : Slot → Slot) :
    (s.modSlot i f).ovenOk = s.ovenOk := rfl
@[simp] theorem modSlot_bulkLow (s : State) (i : SlotId) (f : Slot → Slot) :
    (s.modSlot i f).bulkLow = s.bulkLow := rfl
@[simp] theorem modSlot_sockets (s : State) (i : SlotId) (f : Slot → Slot) :
    (s.modSlot i f).sockets = s.sockets := rfl
@[simp] theorem modSlot_board (s : State) (i : SlotId) (f : Slot → Slot) :
    (s.modSlot i f).board = s.board := rfl
@[simp] theorem modSlot_scan (s : State) (i : SlotId) (f : Slot → Slot) :
    (s.modSlot i f).scan = s.scan := rfl
@[simp] theorem modSlot_rails (s : State) (i : SlotId) (f : Slot → Slot) :
    (s.modSlot i f).rails = s.rails := rfl
@[simp] theorem modSlot_profiles (s : State) (i : SlotId) (f : Slot → Slot) :
    (s.modSlot i f).profiles = s.profiles := rfl
@[simp] theorem modSlot_runs (s : State) (i : SlotId) (f : Slot → Slot) :
    (s.modSlot i f).runs = s.runs := rfl
@[simp] theorem modSlot_rflt (s : State) (i : SlotId) (f : Slot → Slot) :
    (s.modSlot i f).rflt = s.rflt := rfl
@[simp] theorem modSlot_heat (s : State) (i : SlotId) (f : Slot → Slot) :
    (s.modSlot i f).heat = s.heat := rfl
@[simp] theorem modSlot_active (s : State) (i : SlotId) (f : Slot → Slot) :
    (s.modSlot i f).active = s.active := rfl
@[simp] theorem modSlot_heaterOn (s : State) (i : SlotId) (f : Slot → Slot) :
    (s.modSlot i f).heaterOn = s.heaterOn := rfl
@[simp] theorem modSlot_heaterOff (s : State) (i : SlotId) (f : Slot → Slot) :
    (s.modSlot i f).heaterOff = s.heaterOff := rfl
@[simp] theorem modSlot_nextCarrier (s : State) (i : SlotId) (f : Slot → Slot) :
    (s.modSlot i f).nextCarrier = s.nextCarrier := rfl
@[simp] theorem modSlot_supply (s : State) (i : SlotId) (f : Slot → Slot) :
    (s.modSlot i f).supply = s.supply := rfl
@[simp] theorem modSlot_slots (s : State) (i : SlotId) (f : Slot → Slot) :
    (s.modSlot i f).slots = put s.slots i (f (look s.slots i)) := rfl
@[simp] theorem modSlot_timers (s : State) (i : SlotId) (f : Slot → Slot) :
    (s.modSlot i f).timers = s.timers := rfl
@[simp] theorem modSlot_bus (s : State) (i : SlotId) (f : Slot → Slot) :
    (s.modSlot i f).bus = s.bus := rfl
@[simp] theorem modSlot_storeCommand (s : State) (i : SlotId) (f : Slot → Slot) :
    (s.modSlot i f).storeCommand = s.storeCommand := rfl
@[simp] theorem modSlot_mon (s : State) (i : SlotId) (f : Slot → Slot) :
    (s.modSlot i f).mon = s.mon := rfl
@[simp] theorem modSlot_policy (s : State) (i : SlotId) (f : Slot → Slot) :
    (s.modSlot i f).policy = s.policy := rfl
@[simp] theorem modSlot_log (s : State) (i : SlotId) (f : Slot → Slot) :
    (s.modSlot i f).log = s.log := rfl
@[simp] theorem modSlot_runClock (s : State) (i : SlotId) (f : Slot → Slot) :
    (s.modSlot i f).runClock = s.runClock := rfl
@[simp] theorem modSlot_nextTick (s : State) (i : SlotId) (f : Slot → Slot) :
    (s.modSlot i f).nextTick = s.nextTick := rfl
@[simp] theorem modSlot_tickResult (s : State) (i : SlotId) (f : Slot → Slot) :
    (s.modSlot i f).tickResult = s.tickResult := rfl
@[simp] theorem modSlot_link (s : State) (i : SlotId) (f : Slot → Slot) :
    (s.modSlot i f).link = s.link := rfl
@[simp] theorem modSlot_answer (s : State) (i : SlotId) (f : Slot → Slot) :
    (s.modSlot i f).answer = s.answer := rfl
@[simp] theorem modSlot_fails (s : State) (i : SlotId) (f : Slot → Slot) :
    (s.modSlot i f).fails = s.fails := rfl
@[simp] theorem modSlot_orders (s : State) (i : SlotId) (f : Slot → Slot) :
    (s.modSlot i f).orders = s.orders := rfl
@[simp] theorem modSlot_draws (s : State) (i : SlotId) (f : Slot → Slot) :
    (s.modSlot i f).draws = s.draws := rfl
@[simp] theorem modSlot_pending (s : State) (i : SlotId) (f : Slot → Slot) :
    (s.modSlot i f).pending = s.pending := rfl

/-! ### setTickResult -/

@[simp] theorem setTickResult_now (s : State) (k : Socket) (x : Option TickResult) :
    (s.setTickResult k x).now = s.now := rfl
@[simp] theorem setTickResult_resetting (s : State) (k : Socket) (x : Option TickResult) :
    (s.setTickResult k x).resetting = s.resetting := rfl
@[simp] theorem setTickResult_restart (s : State) (k : Socket) (x : Option TickResult) :
    (s.setTickResult k x).restart = s.restart := rfl
@[simp] theorem setTickResult_mode (s : State) (k : Socket) (x : Option TickResult) :
    (s.setTickResult k x).mode = s.mode := rfl
@[simp] theorem setTickResult_safeCause (s : State) (k : Socket) (x : Option TickResult) :
    (s.setTickResult k x).safeCause = s.safeCause := rfl
@[simp] theorem setTickResult_ovenOk (s : State) (k : Socket) (x : Option TickResult) :
    (s.setTickResult k x).ovenOk = s.ovenOk := rfl
@[simp] theorem setTickResult_bulkLow (s : State) (k : Socket) (x : Option TickResult) :
    (s.setTickResult k x).bulkLow = s.bulkLow := rfl
@[simp] theorem setTickResult_sockets (s : State) (k : Socket) (x : Option TickResult) :
    (s.setTickResult k x).sockets = s.sockets := rfl
@[simp] theorem setTickResult_board (s : State) (k : Socket) (x : Option TickResult) :
    (s.setTickResult k x).board = s.board := rfl
@[simp] theorem setTickResult_scan (s : State) (k : Socket) (x : Option TickResult) :
    (s.setTickResult k x).scan = s.scan := rfl
@[simp] theorem setTickResult_rails (s : State) (k : Socket) (x : Option TickResult) :
    (s.setTickResult k x).rails = s.rails := rfl
@[simp] theorem setTickResult_profiles (s : State) (k : Socket) (x : Option TickResult) :
    (s.setTickResult k x).profiles = s.profiles := rfl
@[simp] theorem setTickResult_runs (s : State) (k : Socket) (x : Option TickResult) :
    (s.setTickResult k x).runs = s.runs := rfl
@[simp] theorem setTickResult_rflt (s : State) (k : Socket) (x : Option TickResult) :
    (s.setTickResult k x).rflt = s.rflt := rfl
@[simp] theorem setTickResult_heat (s : State) (k : Socket) (x : Option TickResult) :
    (s.setTickResult k x).heat = s.heat := rfl
@[simp] theorem setTickResult_active (s : State) (k : Socket) (x : Option TickResult) :
    (s.setTickResult k x).active = s.active := rfl
@[simp] theorem setTickResult_heaterOn (s : State) (k : Socket) (x : Option TickResult) :
    (s.setTickResult k x).heaterOn = s.heaterOn := rfl
@[simp] theorem setTickResult_heaterOff (s : State) (k : Socket) (x : Option TickResult) :
    (s.setTickResult k x).heaterOff = s.heaterOff := rfl
@[simp] theorem setTickResult_nextCarrier (s : State) (k : Socket) (x : Option TickResult) :
    (s.setTickResult k x).nextCarrier = s.nextCarrier := rfl
@[simp] theorem setTickResult_supply (s : State) (k : Socket) (x : Option TickResult) :
    (s.setTickResult k x).supply = s.supply := rfl
@[simp] theorem setTickResult_slots (s : State) (k : Socket) (x : Option TickResult) :
    (s.setTickResult k x).slots = s.slots := rfl
@[simp] theorem setTickResult_timers (s : State) (k : Socket) (x : Option TickResult) :
    (s.setTickResult k x).timers = s.timers := rfl
@[simp] theorem setTickResult_bus (s : State) (k : Socket) (x : Option TickResult) :
    (s.setTickResult k x).bus = s.bus := rfl
@[simp] theorem setTickResult_storeCommand (s : State) (k : Socket) (x : Option TickResult) :
    (s.setTickResult k x).storeCommand = s.storeCommand := rfl
@[simp] theorem setTickResult_mon (s : State) (k : Socket) (x : Option TickResult) :
    (s.setTickResult k x).mon = s.mon := rfl
@[simp] theorem setTickResult_policy (s : State) (k : Socket) (x : Option TickResult) :
    (s.setTickResult k x).policy = s.policy := rfl
@[simp] theorem setTickResult_log (s : State) (k : Socket) (x : Option TickResult) :
    (s.setTickResult k x).log = s.log := rfl
@[simp] theorem setTickResult_runClock (s : State) (k : Socket) (x : Option TickResult) :
    (s.setTickResult k x).runClock = s.runClock := rfl
@[simp] theorem setTickResult_nextTick (s : State) (k : Socket) (x : Option TickResult) :
    (s.setTickResult k x).nextTick = s.nextTick := rfl
@[simp] theorem setTickResult_tickResult (s : State) (k : Socket) (x : Option TickResult) :
    (s.setTickResult k x).tickResult = put s.tickResult k x := rfl
@[simp] theorem setTickResult_link (s : State) (k : Socket) (x : Option TickResult) :
    (s.setTickResult k x).link = s.link := rfl
@[simp] theorem setTickResult_answer (s : State) (k : Socket) (x : Option TickResult) :
    (s.setTickResult k x).answer = s.answer := rfl
@[simp] theorem setTickResult_fails (s : State) (k : Socket) (x : Option TickResult) :
    (s.setTickResult k x).fails = s.fails := rfl
@[simp] theorem setTickResult_orders (s : State) (k : Socket) (x : Option TickResult) :
    (s.setTickResult k x).orders = s.orders := rfl
@[simp] theorem setTickResult_draws (s : State) (k : Socket) (x : Option TickResult) :
    (s.setTickResult k x).draws = s.draws := rfl
@[simp] theorem setTickResult_pending (s : State) (k : Socket) (x : Option TickResult) :
    (s.setTickResult k x).pending = s.pending := rfl

/-! ### raiseFail -/

@[simp] theorem raiseFail_now (s : State) (f : FailMsg) :
    (s.raiseFail f).now = s.now := rfl
@[simp] theorem raiseFail_resetting (s : State) (f : FailMsg) :
    (s.raiseFail f).resetting = s.resetting := rfl
@[simp] theorem raiseFail_restart (s : State) (f : FailMsg) :
    (s.raiseFail f).restart = s.restart := rfl
@[simp] theorem raiseFail_mode (s : State) (f : FailMsg) :
    (s.raiseFail f).mode = s.mode := rfl
@[simp] theorem raiseFail_safeCause (s : State) (f : FailMsg) :
    (s.raiseFail f).safeCause = s.safeCause := rfl
@[simp] theorem raiseFail_ovenOk (s : State) (f : FailMsg) :
    (s.raiseFail f).ovenOk = s.ovenOk := rfl
@[simp] theorem raiseFail_bulkLow (s : State) (f : FailMsg) :
    (s.raiseFail f).bulkLow = s.bulkLow := rfl
@[simp] theorem raiseFail_sockets (s : State) (f : FailMsg) :
    (s.raiseFail f).sockets = s.sockets := rfl
@[simp] theorem raiseFail_board (s : State) (f : FailMsg) :
    (s.raiseFail f).board = s.board := rfl
@[simp] theorem raiseFail_scan (s : State) (f : FailMsg) :
    (s.raiseFail f).scan = s.scan := rfl
@[simp] theorem raiseFail_rails (s : State) (f : FailMsg) :
    (s.raiseFail f).rails = s.rails := rfl
@[simp] theorem raiseFail_profiles (s : State) (f : FailMsg) :
    (s.raiseFail f).profiles = s.profiles := rfl
@[simp] theorem raiseFail_runs (s : State) (f : FailMsg) :
    (s.raiseFail f).runs = s.runs := rfl
@[simp] theorem raiseFail_rflt (s : State) (f : FailMsg) :
    (s.raiseFail f).rflt = s.rflt := rfl
@[simp] theorem raiseFail_heat (s : State) (f : FailMsg) :
    (s.raiseFail f).heat = s.heat := rfl
@[simp] theorem raiseFail_active (s : State) (f : FailMsg) :
    (s.raiseFail f).active = s.active := rfl
@[simp] theorem raiseFail_heaterOn (s : State) (f : FailMsg) :
    (s.raiseFail f).heaterOn = s.heaterOn := rfl
@[simp] theorem raiseFail_heaterOff (s : State) (f : FailMsg) :
    (s.raiseFail f).heaterOff = s.heaterOff := rfl
@[simp] theorem raiseFail_nextCarrier (s : State) (f : FailMsg) :
    (s.raiseFail f).nextCarrier = s.nextCarrier := rfl
@[simp] theorem raiseFail_supply (s : State) (f : FailMsg) :
    (s.raiseFail f).supply = s.supply := rfl
@[simp] theorem raiseFail_slots (s : State) (f : FailMsg) :
    (s.raiseFail f).slots = s.slots := rfl
@[simp] theorem raiseFail_timers (s : State) (f : FailMsg) :
    (s.raiseFail f).timers = s.timers := rfl
@[simp] theorem raiseFail_bus (s : State) (f : FailMsg) :
    (s.raiseFail f).bus = s.bus := rfl
@[simp] theorem raiseFail_storeCommand (s : State) (f : FailMsg) :
    (s.raiseFail f).storeCommand = s.storeCommand := rfl
@[simp] theorem raiseFail_mon (s : State) (f : FailMsg) :
    (s.raiseFail f).mon = s.mon := rfl
@[simp] theorem raiseFail_policy (s : State) (f : FailMsg) :
    (s.raiseFail f).policy = s.policy := rfl
@[simp] theorem raiseFail_log (s : State) (f : FailMsg) :
    (s.raiseFail f).log = s.log := rfl
@[simp] theorem raiseFail_runClock (s : State) (f : FailMsg) :
    (s.raiseFail f).runClock = s.runClock := rfl
@[simp] theorem raiseFail_nextTick (s : State) (f : FailMsg) :
    (s.raiseFail f).nextTick = s.nextTick := rfl
@[simp] theorem raiseFail_tickResult (s : State) (f : FailMsg) :
    (s.raiseFail f).tickResult = s.tickResult := rfl
@[simp] theorem raiseFail_link (s : State) (f : FailMsg) :
    (s.raiseFail f).link = s.link := rfl
@[simp] theorem raiseFail_answer (s : State) (f : FailMsg) :
    (s.raiseFail f).answer = s.answer := rfl
@[simp] theorem raiseFail_fails (s : State) (f : FailMsg) :
    (s.raiseFail f).fails = s.fails ++ [f] := rfl
@[simp] theorem raiseFail_orders (s : State) (f : FailMsg) :
    (s.raiseFail f).orders = s.orders := rfl
@[simp] theorem raiseFail_draws (s : State) (f : FailMsg) :
    (s.raiseFail f).draws = s.draws := rfl
@[simp] theorem raiseFail_pending (s : State) (f : FailMsg) :
    (s.raiseFail f).pending = s.pending := rfl

/-! ### issueOrder -/

@[simp] theorem issueOrder_now (s : State) (o : StopOrder) :
    (s.issueOrder o).now = s.now := rfl
@[simp] theorem issueOrder_resetting (s : State) (o : StopOrder) :
    (s.issueOrder o).resetting = s.resetting := rfl
@[simp] theorem issueOrder_restart (s : State) (o : StopOrder) :
    (s.issueOrder o).restart = s.restart := rfl
@[simp] theorem issueOrder_mode (s : State) (o : StopOrder) :
    (s.issueOrder o).mode = s.mode := rfl
@[simp] theorem issueOrder_safeCause (s : State) (o : StopOrder) :
    (s.issueOrder o).safeCause = s.safeCause := rfl
@[simp] theorem issueOrder_ovenOk (s : State) (o : StopOrder) :
    (s.issueOrder o).ovenOk = s.ovenOk := rfl
@[simp] theorem issueOrder_bulkLow (s : State) (o : StopOrder) :
    (s.issueOrder o).bulkLow = s.bulkLow := rfl
@[simp] theorem issueOrder_sockets (s : State) (o : StopOrder) :
    (s.issueOrder o).sockets = s.sockets := rfl
@[simp] theorem issueOrder_board (s : State) (o : StopOrder) :
    (s.issueOrder o).board = s.board := rfl
@[simp] theorem issueOrder_scan (s : State) (o : StopOrder) :
    (s.issueOrder o).scan = s.scan := rfl
@[simp] theorem issueOrder_rails (s : State) (o : StopOrder) :
    (s.issueOrder o).rails = s.rails := rfl
@[simp] theorem issueOrder_profiles (s : State) (o : StopOrder) :
    (s.issueOrder o).profiles = s.profiles := rfl
@[simp] theorem issueOrder_runs (s : State) (o : StopOrder) :
    (s.issueOrder o).runs = s.runs := rfl
@[simp] theorem issueOrder_rflt (s : State) (o : StopOrder) :
    (s.issueOrder o).rflt = s.rflt := rfl
@[simp] theorem issueOrder_heat (s : State) (o : StopOrder) :
    (s.issueOrder o).heat = s.heat := rfl
@[simp] theorem issueOrder_active (s : State) (o : StopOrder) :
    (s.issueOrder o).active = s.active := rfl
@[simp] theorem issueOrder_heaterOn (s : State) (o : StopOrder) :
    (s.issueOrder o).heaterOn = s.heaterOn := rfl
@[simp] theorem issueOrder_heaterOff (s : State) (o : StopOrder) :
    (s.issueOrder o).heaterOff = s.heaterOff := rfl
@[simp] theorem issueOrder_nextCarrier (s : State) (o : StopOrder) :
    (s.issueOrder o).nextCarrier = s.nextCarrier := rfl
@[simp] theorem issueOrder_supply (s : State) (o : StopOrder) :
    (s.issueOrder o).supply = s.supply := rfl
@[simp] theorem issueOrder_slots (s : State) (o : StopOrder) :
    (s.issueOrder o).slots = s.slots := rfl
@[simp] theorem issueOrder_timers (s : State) (o : StopOrder) :
    (s.issueOrder o).timers = s.timers := rfl
@[simp] theorem issueOrder_bus (s : State) (o : StopOrder) :
    (s.issueOrder o).bus = s.bus := rfl
@[simp] theorem issueOrder_storeCommand (s : State) (o : StopOrder) :
    (s.issueOrder o).storeCommand = s.storeCommand := rfl
@[simp] theorem issueOrder_mon (s : State) (o : StopOrder) :
    (s.issueOrder o).mon = s.mon := rfl
@[simp] theorem issueOrder_policy (s : State) (o : StopOrder) :
    (s.issueOrder o).policy = s.policy := rfl
@[simp] theorem issueOrder_log (s : State) (o : StopOrder) :
    (s.issueOrder o).log = s.log := rfl
@[simp] theorem issueOrder_runClock (s : State) (o : StopOrder) :
    (s.issueOrder o).runClock = s.runClock := rfl
@[simp] theorem issueOrder_nextTick (s : State) (o : StopOrder) :
    (s.issueOrder o).nextTick = s.nextTick := rfl
@[simp] theorem issueOrder_tickResult (s : State) (o : StopOrder) :
    (s.issueOrder o).tickResult = s.tickResult := rfl
@[simp] theorem issueOrder_link (s : State) (o : StopOrder) :
    (s.issueOrder o).link = s.link := rfl
@[simp] theorem issueOrder_answer (s : State) (o : StopOrder) :
    (s.issueOrder o).answer = s.answer := rfl
@[simp] theorem issueOrder_fails (s : State) (o : StopOrder) :
    (s.issueOrder o).fails = s.fails := rfl
@[simp] theorem issueOrder_orders (s : State) (o : StopOrder) :
    (s.issueOrder o).orders = s.orders ++ [o] := rfl
@[simp] theorem issueOrder_draws (s : State) (o : StopOrder) :
    (s.issueOrder o).draws = s.draws := rfl
@[simp] theorem issueOrder_pending (s : State) (o : StopOrder) :
    (s.issueOrder o).pending = s.pending := rfl

/-! ### reply -/

@[simp] theorem reply_now (s : State) (r : Result) (p : List Byte) :
    (s.reply r p).now = s.now := rfl
@[simp] theorem reply_resetting (s : State) (r : Result) (p : List Byte) :
    (s.reply r p).resetting = s.resetting := rfl
@[simp] theorem reply_restart (s : State) (r : Result) (p : List Byte) :
    (s.reply r p).restart = s.restart := rfl
@[simp] theorem reply_mode (s : State) (r : Result) (p : List Byte) :
    (s.reply r p).mode = s.mode := rfl
@[simp] theorem reply_safeCause (s : State) (r : Result) (p : List Byte) :
    (s.reply r p).safeCause = s.safeCause := rfl
@[simp] theorem reply_ovenOk (s : State) (r : Result) (p : List Byte) :
    (s.reply r p).ovenOk = s.ovenOk := rfl
@[simp] theorem reply_bulkLow (s : State) (r : Result) (p : List Byte) :
    (s.reply r p).bulkLow = s.bulkLow := rfl
@[simp] theorem reply_sockets (s : State) (r : Result) (p : List Byte) :
    (s.reply r p).sockets = s.sockets := rfl
@[simp] theorem reply_board (s : State) (r : Result) (p : List Byte) :
    (s.reply r p).board = s.board := rfl
@[simp] theorem reply_scan (s : State) (r : Result) (p : List Byte) :
    (s.reply r p).scan = s.scan := rfl
@[simp] theorem reply_rails (s : State) (r : Result) (p : List Byte) :
    (s.reply r p).rails = s.rails := rfl
@[simp] theorem reply_profiles (s : State) (r : Result) (p : List Byte) :
    (s.reply r p).profiles = s.profiles := rfl
@[simp] theorem reply_runs (s : State) (r : Result) (p : List Byte) :
    (s.reply r p).runs = s.runs := rfl
@[simp] theorem reply_rflt (s : State) (r : Result) (p : List Byte) :
    (s.reply r p).rflt = s.rflt := rfl
@[simp] theorem reply_heat (s : State) (r : Result) (p : List Byte) :
    (s.reply r p).heat = s.heat := rfl
@[simp] theorem reply_active (s : State) (r : Result) (p : List Byte) :
    (s.reply r p).active = s.active := rfl
@[simp] theorem reply_heaterOn (s : State) (r : Result) (p : List Byte) :
    (s.reply r p).heaterOn = s.heaterOn := rfl
@[simp] theorem reply_heaterOff (s : State) (r : Result) (p : List Byte) :
    (s.reply r p).heaterOff = s.heaterOff := rfl
@[simp] theorem reply_nextCarrier (s : State) (r : Result) (p : List Byte) :
    (s.reply r p).nextCarrier = s.nextCarrier := rfl
@[simp] theorem reply_supply (s : State) (r : Result) (p : List Byte) :
    (s.reply r p).supply = s.supply := rfl
@[simp] theorem reply_slots (s : State) (r : Result) (p : List Byte) :
    (s.reply r p).slots = s.slots := rfl
@[simp] theorem reply_timers (s : State) (r : Result) (p : List Byte) :
    (s.reply r p).timers = s.timers := rfl
@[simp] theorem reply_bus (s : State) (r : Result) (p : List Byte) :
    (s.reply r p).bus = s.bus := rfl
@[simp] theorem reply_storeCommand (s : State) (r : Result) (p : List Byte) :
    (s.reply r p).storeCommand = s.storeCommand := rfl
@[simp] theorem reply_mon (s : State) (r : Result) (p : List Byte) :
    (s.reply r p).mon = s.mon := rfl
@[simp] theorem reply_policy (s : State) (r : Result) (p : List Byte) :
    (s.reply r p).policy = s.policy := rfl
@[simp] theorem reply_log (s : State) (r : Result) (p : List Byte) :
    (s.reply r p).log = s.log := rfl
@[simp] theorem reply_runClock (s : State) (r : Result) (p : List Byte) :
    (s.reply r p).runClock = s.runClock := rfl
@[simp] theorem reply_nextTick (s : State) (r : Result) (p : List Byte) :
    (s.reply r p).nextTick = s.nextTick := rfl
@[simp] theorem reply_tickResult (s : State) (r : Result) (p : List Byte) :
    (s.reply r p).tickResult = s.tickResult := rfl
@[simp] theorem reply_link (s : State) (r : Result) (p : List Byte) :
    (s.reply r p).link = s.link := rfl
@[simp] theorem reply_answer (s : State) (r : Result) (p : List Byte) :
    (s.reply r p).answer = some ⟨r, p⟩ := rfl
@[simp] theorem reply_fails (s : State) (r : Result) (p : List Byte) :
    (s.reply r p).fails = s.fails := rfl
@[simp] theorem reply_orders (s : State) (r : Result) (p : List Byte) :
    (s.reply r p).orders = s.orders := rfl
@[simp] theorem reply_draws (s : State) (r : Result) (p : List Byte) :
    (s.reply r p).draws = s.draws := rfl
@[simp] theorem reply_pending (s : State) (r : Result) (p : List Byte) :
    (s.reply r p).pending = s.pending := rfl

/-! ### refuse -/

@[simp] theorem refuse_now (s : State) (r : Result) :
    (s.refuse r).now = s.now := rfl
@[simp] theorem refuse_resetting (s : State) (r : Result) :
    (s.refuse r).resetting = s.resetting := rfl
@[simp] theorem refuse_restart (s : State) (r : Result) :
    (s.refuse r).restart = s.restart := rfl
@[simp] theorem refuse_mode (s : State) (r : Result) :
    (s.refuse r).mode = s.mode := rfl
@[simp] theorem refuse_safeCause (s : State) (r : Result) :
    (s.refuse r).safeCause = s.safeCause := rfl
@[simp] theorem refuse_ovenOk (s : State) (r : Result) :
    (s.refuse r).ovenOk = s.ovenOk := rfl
@[simp] theorem refuse_bulkLow (s : State) (r : Result) :
    (s.refuse r).bulkLow = s.bulkLow := rfl
@[simp] theorem refuse_sockets (s : State) (r : Result) :
    (s.refuse r).sockets = s.sockets := rfl
@[simp] theorem refuse_board (s : State) (r : Result) :
    (s.refuse r).board = s.board := rfl
@[simp] theorem refuse_scan (s : State) (r : Result) :
    (s.refuse r).scan = s.scan := rfl
@[simp] theorem refuse_rails (s : State) (r : Result) :
    (s.refuse r).rails = s.rails := rfl
@[simp] theorem refuse_profiles (s : State) (r : Result) :
    (s.refuse r).profiles = s.profiles := rfl
@[simp] theorem refuse_runs (s : State) (r : Result) :
    (s.refuse r).runs = s.runs := rfl
@[simp] theorem refuse_rflt (s : State) (r : Result) :
    (s.refuse r).rflt = s.rflt := rfl
@[simp] theorem refuse_heat (s : State) (r : Result) :
    (s.refuse r).heat = s.heat := rfl
@[simp] theorem refuse_active (s : State) (r : Result) :
    (s.refuse r).active = s.active := rfl
@[simp] theorem refuse_heaterOn (s : State) (r : Result) :
    (s.refuse r).heaterOn = s.heaterOn := rfl
@[simp] theorem refuse_heaterOff (s : State) (r : Result) :
    (s.refuse r).heaterOff = s.heaterOff := rfl
@[simp] theorem refuse_nextCarrier (s : State) (r : Result) :
    (s.refuse r).nextCarrier = s.nextCarrier := rfl
@[simp] theorem refuse_supply (s : State) (r : Result) :
    (s.refuse r).supply = s.supply := rfl
@[simp] theorem refuse_slots (s : State) (r : Result) :
    (s.refuse r).slots = s.slots := rfl
@[simp] theorem refuse_timers (s : State) (r : Result) :
    (s.refuse r).timers = s.timers := rfl
@[simp] theorem refuse_bus (s : State) (r : Result) :
    (s.refuse r).bus = s.bus := rfl
@[simp] theorem refuse_storeCommand (s : State) (r : Result) :
    (s.refuse r).storeCommand = s.storeCommand := rfl
@[simp] theorem refuse_mon (s : State) (r : Result) :
    (s.refuse r).mon = s.mon := rfl
@[simp] theorem refuse_policy (s : State) (r : Result) :
    (s.refuse r).policy = s.policy := rfl
@[simp] theorem refuse_log (s : State) (r : Result) :
    (s.refuse r).log = s.log := rfl
@[simp] theorem refuse_runClock (s : State) (r : Result) :
    (s.refuse r).runClock = s.runClock := rfl
@[simp] theorem refuse_nextTick (s : State) (r : Result) :
    (s.refuse r).nextTick = s.nextTick := rfl
@[simp] theorem refuse_tickResult (s : State) (r : Result) :
    (s.refuse r).tickResult = s.tickResult := rfl
@[simp] theorem refuse_link (s : State) (r : Result) :
    (s.refuse r).link = s.link := rfl
@[simp] theorem refuse_answer (s : State) (r : Result) :
    (s.refuse r).answer = some ⟨r, []⟩ := rfl
@[simp] theorem refuse_fails (s : State) (r : Result) :
    (s.refuse r).fails = s.fails := rfl
@[simp] theorem refuse_orders (s : State) (r : Result) :
    (s.refuse r).orders = s.orders := rfl
@[simp] theorem refuse_draws (s : State) (r : Result) :
    (s.refuse r).draws = s.draws := rfl
@[simp] theorem refuse_pending (s : State) (r : Result) :
    (s.refuse r).pending = s.pending := rfl

/-! ### draw -/

@[simp] theorem draw_now (s : State) :
    (s.draw).now = s.now := rfl
@[simp] theorem draw_resetting (s : State) :
    (s.draw).resetting = s.resetting := rfl
@[simp] theorem draw_restart (s : State) :
    (s.draw).restart = s.restart := rfl
@[simp] theorem draw_mode (s : State) :
    (s.draw).mode = s.mode := rfl
@[simp] theorem draw_safeCause (s : State) :
    (s.draw).safeCause = s.safeCause := rfl
@[simp] theorem draw_ovenOk (s : State) :
    (s.draw).ovenOk = s.ovenOk := rfl
@[simp] theorem draw_bulkLow (s : State) :
    (s.draw).bulkLow = s.bulkLow := rfl
@[simp] theorem draw_sockets (s : State) :
    (s.draw).sockets = s.sockets := rfl
@[simp] theorem draw_board (s : State) :
    (s.draw).board = s.board := rfl
@[simp] theorem draw_scan (s : State) :
    (s.draw).scan = s.scan := rfl
@[simp] theorem draw_rails (s : State) :
    (s.draw).rails = s.rails := rfl
@[simp] theorem draw_profiles (s : State) :
    (s.draw).profiles = s.profiles := rfl
@[simp] theorem draw_runs (s : State) :
    (s.draw).runs = s.runs := rfl
@[simp] theorem draw_rflt (s : State) :
    (s.draw).rflt = s.rflt := rfl
@[simp] theorem draw_heat (s : State) :
    (s.draw).heat = s.heat := rfl
@[simp] theorem draw_active (s : State) :
    (s.draw).active = s.active := rfl
@[simp] theorem draw_heaterOn (s : State) :
    (s.draw).heaterOn = s.heaterOn := rfl
@[simp] theorem draw_heaterOff (s : State) :
    (s.draw).heaterOff = s.heaterOff := rfl
@[simp] theorem draw_nextCarrier (s : State) :
    (s.draw).nextCarrier = s.nextCarrier := rfl
@[simp] theorem draw_supply (s : State) :
    (s.draw).supply = s.supply := rfl
@[simp] theorem draw_slots (s : State) :
    (s.draw).slots = s.slots := rfl
@[simp] theorem draw_timers (s : State) :
    (s.draw).timers = s.timers := rfl
@[simp] theorem draw_bus (s : State) :
    (s.draw).bus = s.bus := rfl
@[simp] theorem draw_storeCommand (s : State) :
    (s.draw).storeCommand = s.storeCommand := rfl
@[simp] theorem draw_mon (s : State) :
    (s.draw).mon = s.mon := rfl
@[simp] theorem draw_policy (s : State) :
    (s.draw).policy = s.policy := rfl
@[simp] theorem draw_log (s : State) :
    (s.draw).log = s.log := rfl
@[simp] theorem draw_runClock (s : State) :
    (s.draw).runClock = s.runClock := rfl
@[simp] theorem draw_nextTick (s : State) :
    (s.draw).nextTick = s.nextTick := rfl
@[simp] theorem draw_tickResult (s : State) :
    (s.draw).tickResult = s.tickResult := rfl
@[simp] theorem draw_link (s : State) :
    (s.draw).link = s.link := rfl
@[simp] theorem draw_answer (s : State) :
    (s.draw).answer = s.answer := rfl
@[simp] theorem draw_fails (s : State) :
    (s.draw).fails = s.fails := rfl
@[simp] theorem draw_orders (s : State) :
    (s.draw).orders = s.orders := rfl
@[simp] theorem draw_draws (s : State) :
    (s.draw).draws = s.draws + 1 := rfl
@[simp] theorem draw_pending (s : State) :
    (s.draw).pending = s.pending := rfl

end Sys2Proof.Machine.State
end

