-- ==== Sys2Proof/Laws/Tables.lean ====
section
/-! SUPPORT. What a read of a table, of a pair of rails or of a set of sockets gives after a write. -/

namespace Sys2Proof

@[simp] theorem look_put_same {α : Type} {n : Nat} (v : Vector α n) (i : Fin n) (x : α) :
    look (put v i x) i = x := by
  simp [look, put]

@[simp] theorem look_put_other {α : Type} {n : Nat} (v : Vector α n) (i j : Fin n) (x : α)
    (h : j ≠ i) : look (put v i x) j = look v j := by
  have : i.val ≠ j.val := fun e => h (Fin.ext e.symm)
  simp [look, put, this]

theorem look_put {α : Type} {n : Nat} (v : Vector α n) (i j : Fin n) (x : α) :
    look (put v i x) j = if j = i then x else look v j := by
  by_cases h : j = i
  · subst h
    simp
  · simp [h]

/-- Two tables with equal entries are equal. -/
theorem table_ext {α : Type} {n : Nat} {v w : Vector α n} (h : ∀ i, look v i = look w i) : v = w := by
  apply Vector.ext
  intro i hi
  exact h ⟨i, hi⟩

@[simp] theorem put_look {α : Type} {n : Nat} (v : Vector α n) (i : Fin n) : put v i (look v i) = v :=
  table_ext fun j => by
    by_cases h : j = i
    · subst h
      simp
    · simp [h]

@[simp] theorem put_put {α : Type} {n : Nat} (v : Vector α n) (i : Fin n) (x y : α) :
    put (put v i x) i y = put v i y :=
  table_ext fun j => by
    by_cases h : j = i
    · subst h
      simp
    · simp [h]

@[simp] theorem look_tab16 {α : Type} (f : Socket → α) (k : Socket) : look (tab16 f) k = f k := by
  fin_cases k <;> rfl

@[simp] theorem look_tab8 {α : Type} (f : Fin 8 → α) (i : Fin 8) : look (tab8 f) i = f i := by
  fin_cases i <;> rfl

theorem tab16_look {α : Type} (v : Tab α) : tab16 (fun k => look v k) = v :=
  table_ext fun k => by simp

theorem tab8_look {α : Type} (v : Vector α 8) : tab8 (fun i => look v i) = v :=
  table_ext fun i => by simp

@[simp] theorem get_set_same {α : Type} (p : PerRail α) (r : RailKind) (x : α) :
    (p.set r x).get r = x := by
  cases r <;> rfl

theorem get_set {α : Type} (p : PerRail α) (r q : RailKind) (x : α) :
    (p.set r x).get q = if q = r then x else p.get q := by
  cases r <;> cases q <;> simp [PerRail.set, PerRail.get]

theorem perRail_ext {α : Type} {p q : PerRail α} (h : ∀ r, p.get r = q.get r) : p = q := by
  cases p
  cases q
  have hc := h .core
  have ha := h .aux
  simp only [PerRail.get] at hc ha
  subst hc
  subst ha
  rfl

@[simp] theorem mem_allSockets (k : Socket) : k ∈ allSockets := by
  fin_cases k <;> decide

@[simp] theorem mem_allSlots (i : SlotId) : i ∈ allSlots := by
  fin_cases i <;> decide

theorem allSockets_nodup : allSockets.Nodup := by decide

/-- The number whose bits below `n` are those of `f`. -/
def bitsBelow (f : Nat → Bool) : Nat → Nat
  | 0 => 0
  | n + 1 => if f n then bitsBelow f n + 2 ^ n else bitsBelow f n

theorem bitsBelow_spec (f : Nat → Bool) (n : Nat) :
    bitsBelow f n < 2 ^ n ∧ ∀ i, (bitsBelow f n).testBit i = (decide (i < n) && f i) := by
  induction n with
  | zero => simp [bitsBelow]
  | succ n ih =>
      obtain ⟨hlt, hbit⟩ := ih
      have hpow : 2 ^ (n + 1) = 2 ^ n + 2 ^ n := by rw [pow_succ]; omega
      have hstep : ∀ i, i ≠ n → decide (i < n + 1) = decide (i < n) := by
        intro i hi
        simp only [decide_eq_decide]
        omega
      by_cases hf : f n = true
      · simp only [bitsBelow, hf, if_true]
        refine ⟨by omega, fun i => ?_⟩
        rw [Nat.add_comm]
        rcases Nat.lt_trichotomy i n with h | h | h
        · rw [Nat.testBit_two_pow_add_gt h, hbit, hstep i (by omega)]
        · subst h
          rw [Nat.testBit_two_pow_add_eq, hbit]
          simp [hf]
        · have hbig : 2 ^ n + bitsBelow f n < 2 ^ i :=
            lt_of_lt_of_le (by omega) (Nat.pow_le_pow_right (by omega) (show n + 1 ≤ i by omega))
          rw [Nat.testBit_lt_two_pow hbig]
          simp
          omega
      · have hf' : f n = false := by simpa using hf
        simp only [bitsBelow, hf', Bool.false_eq_true, if_false]
        refine ⟨by omega, fun i => ?_⟩
        rw [hbit]
        by_cases h : i = n
        · subst h
          simp [hf']
        · rw [hstep i h]

/-- Each socket is in the set of `f` exactly when `f` holds of it. -/
@[simp] theorem inSet_setOf (f : Socket → Bool) (k : Socket) : inSet (setOf f) k = f k := by
  have hfold : allSockets.foldl (fun n k => if f k then n + 2 ^ k.val else n) 0
      = bitsBelow (fun i => f (Fin.ofNat 16 i)) 16 := rfl
  have hk : Fin.ofNat 16 k.val = k := by
    apply Fin.ext
    simp [Fin.ofNat, Nat.mod_eq_of_lt k.isLt]
  simp only [inSet, setOf, hfold, BitVec.getLsbD_ofNat, (bitsBelow_spec _ 16).2, hk]
  simp

theorem clampNat_le {lo hi x : Nat} (h : lo ≤ hi) : clampNat lo hi x ≤ hi := by
  unfold clampNat
  split
  · exact h
  · split <;> omega

theorem le_clampNat {lo hi x : Nat} (h : lo ≤ hi) : lo ≤ clampNat lo hi x := by
  unfold clampNat
  split
  · exact Nat.le_refl lo
  · split <;> omega

theorem clampInt_le {lo hi x : Int} (h : lo ≤ hi) : clampInt lo hi x ≤ hi := by
  unfold clampInt
  split
  · exact h
  · split <;> omega

theorem le_clampInt {lo hi x : Int} (h : lo ≤ hi) : lo ≤ clampInt lo hi x := by
  unfold clampInt
  split
  · exact Int.le_refl lo
  · split <;> omega

theorem satAdd_le (cap a b : Nat) : satAdd cap a b ≤ cap := by
  unfold satAdd
  split <;> omega

end Sys2Proof
end

