-- ==== Sys2Proof/Laws/Frames.lean ====
section
/-! SUPPORT. What the shared operations leave as it stands: the Rail Sequencer's operations (`RailsOnly`),
the Socket Controller's (`SocketsOnly`), the Burst Engine's (`BurstOnly`). Each relation is an equation, so
that one `congrArg` gives any field that stands. -/

namespace Sys2Proof.Machine

/-! ### The Rail Sequencer -/

/-- At most rails, runs, measured marks, the grant sum and the fails in flight differ. -/
def RailsOnly (s t : State) : Prop :=
  t = { s with
    rails := t.rails
    runs := t.runs
    fails := t.fails
    supply := { s.supply with measured := t.supply.measured, grantSum := t.supply.grantSum } }

theorem RailsOnly.refl (s : State) : RailsOnly s s := rfl

theorem RailsOnly.eq {s t : State} (h : RailsOnly s t) :
    t = { s with
      rails := t.rails
      runs := t.runs
      fails := t.fails
      supply := { s.supply with measured := t.supply.measured, grantSum := t.supply.grantSum } } := h

theorem RailsOnly.trans {s t u : State} (h : RailsOnly s t) (g : RailsOnly t u) : RailsOnly s u := by
  unfold RailsOnly at h g ⊢
  refine g.trans ?_
  rw [h]

/-- Whatever does not read those five fields stands. -/
theorem RailsOnly.keeps {α : Type} {s t : State} (h : RailsOnly s t) (f : State → α)
    (hf : ∀ a b c d e, f { s with rails := a, runs := b, fails := c, supply := { s.supply with measured := d, grantSum := e } } = f s) :
    f t = f s := by
  have := congrArg f h
  rw [this, hf]

theorem RailsOnly.sockets {s t : State} (h : RailsOnly s t) : t.sockets = s.sockets :=
  (congrArg State.sockets h.eq :)
theorem RailsOnly.board {s t : State} (h : RailsOnly s t) : t.board = s.board := (congrArg State.board h.eq :)
theorem RailsOnly.mode {s t : State} (h : RailsOnly s t) : t.mode = s.mode := (congrArg State.mode h.eq :)
theorem RailsOnly.heat {s t : State} (h : RailsOnly s t) : t.heat = s.heat := (congrArg State.heat h.eq :)
theorem RailsOnly.mon {s t : State} (h : RailsOnly s t) : t.mon = s.mon := (congrArg State.mon h.eq :)
theorem RailsOnly.profiles {s t : State} (h : RailsOnly s t) : t.profiles = s.profiles :=
  (congrArg State.profiles h.eq :)
theorem RailsOnly.now {s t : State} (h : RailsOnly s t) : t.now = s.now := (congrArg State.now h.eq :)
theorem RailsOnly.pending {s t : State} (h : RailsOnly s t) : t.pending = s.pending :=
  (congrArg State.pending h.eq :)
theorem RailsOnly.applied {s t : State} (h : RailsOnly s t) : t.supply.applied = s.supply.applied :=
  (congrArg (fun x => x.supply.applied) h.eq :)
theorem RailsOnly.active {s t : State} (h : RailsOnly s t) : t.active = s.active :=
  (congrArg State.active h.eq :)
theorem RailsOnly.heaterOn {s t : State} (h : RailsOnly s t) : t.heaterOn = s.heaterOn :=
  (congrArg State.heaterOn h.eq :)
theorem RailsOnly.tickResult {s t : State} (h : RailsOnly s t) : t.tickResult = s.tickResult :=
  (congrArg State.tickResult h.eq :)
theorem RailsOnly.orders {s t : State} (h : RailsOnly s t) : t.orders = s.orders :=
  (congrArg State.orders h.eq :)
theorem RailsOnly.sock {s t : State} (h : RailsOnly s t) (k : Socket) : t.sock k = s.sock k := by
  simp only [State.sock, h.sockets]

theorem writeRail_only (k : Socket) (r : RailKind) (x : Rail) (s : State) :
    RailsOnly s (writeRail k r x s) := rfl
theorem setMark_only (k : Socket) (r : RailKind) (m : Bool) (s : State) :
    RailsOnly s (setMark k r m s) := rfl
theorem enterRail_only (k : Socket) (r : RailKind) (x : Rail) (s : State) :
    RailsOnly s (enterRail k r x s) := rfl
theorem setRun_only (k : Socket) (x : Option Run) (s : State) : RailsOnly s (s.setRun k x) := rfl
theorem raiseFail_only (f : FailMsg) (s : State) : RailsOnly s (s.raiseFail f) := rfl

theorem setCond_only (k : Socket) (c : StepCondition) (s : State) : RailsOnly s (setCond k c s) := by
  unfold setCond
  split
  · exact setRun_only k _ s
  · exact RailsOnly.refl s

theorem setStep_only (k : Socket) (i : Nat) (c : StepCondition) (s : State) :
    RailsOnly s (setStep k i c s) := by
  unfold setStep
  split
  · exact setRun_only k _ s
  · exact RailsOnly.refl s

theorem regFaultCheck_only (k : Socket) (b : Bool) (s : State) : RailsOnly s (regFaultCheck k b s) := by
  unfold regFaultCheck
  split
  · exact raiseFail_only _ s
  · exact RailsOnly.refl s

theorem grantRail_only (k : Socket) (r : RailKind) (s : State) : RailsOnly s (grantRail k r s) := by
  unfold grantRail
  refine RailsOnly.trans ?_ (regFaultCheck_only k _ _)
  refine RailsOnly.trans ?_ (setCond_only k _ _)
  rfl

theorem grantAll_only (l : List (Socket × RailKind)) (s : State) : RailsOnly s (grantAll l s) := by
  induction l generalizing s with
  | nil => exact RailsOnly.refl s
  | cons x rest ih =>
      obtain ⟨k, r⟩ := x
      unfold grantAll
      split
      · exact (grantRail_only k r s).trans (ih _)
      · exact RailsOnly.refl s

theorem grantDecision_only (s : State) : RailsOnly s (grantDecision s) := grantAll_only _ s

theorem joinList_only (k : Socket) (r : RailKind) (s : State) : RailsOnly s (joinList k r s) := by
  unfold joinList
  exact ((enterRail_only k r _ s).trans (setCond_only k _ _)).trans (grantDecision_only _)

theorem dropRail_only (k : Socket) (r : RailKind) (s : State) : RailsOnly s (dropRail k r s) := by
  unfold dropRail
  split
  all_goals first | exact enterRail_only k r _ s | exact RailsOnly.refl s

theorem dropBoth_only (k : Socket) (s : State) : RailsOnly s (dropBoth k s) :=
  (dropRail_only k .core s).trans (dropRail_only k .aux _)

theorem finishRun_only (k : Socket) (s : State) : RailsOnly s (finishRun k s) := by
  unfold finishRun
  split
  · exact RailsOnly.refl s
  · split
    · exact setRun_only k _ s
    · have hend : RailsOnly s
          (if bothOff k (dropBoth k s) = true then (dropBoth k s).setRun k none
            else setCond k .falling (dropBoth k s)) := by
        split
        · exact (dropBoth_only k s).trans (setRun_only k _ _)
        · exact (dropBoth_only k s).trans (setCond_only k _ _)
      dsimp only
      split
      · exact hend.trans (grantDecision_only _)
      · exact hend

theorem runSteps_only (l : List Step) (i : Nat) (k : Socket) (s : State) :
    RailsOnly s (runSteps l i k s) := by
  induction l generalizing i s with
  | nil => exact finishRun_only k s
  | cons x rest ih =>
      unfold runSteps
      split
      · split
        · exact (setStep_only k i _ s).trans (joinList_only k _ _)
        · exact (setStep_only k i _ s).trans (ih _ _)
        all_goals exact setStep_only k i _ s
      · split
        · exact (setStep_only k i _ s).trans (dropRail_only k _ _)
        · exact ((setStep_only k i _ s).trans (dropRail_only k _ _)).trans (grantDecision_only _)
        · exact setStep_only k i _ s
        · exact ((setStep_only k i _ s).trans (dropRail_only k _ _)).trans (ih _ _)
        · exact (setStep_only k i _ s).trans (ih _ _)
      · exact setStep_only k i _ s
      · exact setStep_only k i _ s

theorem startRun_only (k : Socket) (d : RunDirection) (p : ProfileId) (s : State) :
    RailsOnly s (startRun k d p s) :=
  (setRun_only k _ s).trans (runSteps_only _ _ k _)

theorem nextStep_only (k : Socket) (s : State) : RailsOnly s (nextStep k s) := by
  unfold nextStep
  split
  · exact runSteps_only _ _ k s
  · exact RailsOnly.refl s

theorem abandonRail_only (k : Socket) (r : RailKind) (s : State) : RailsOnly s (abandonRail k r s) := by
  unfold abandonRail
  split
  all_goals first | exact dropRail_only k r s | exact RailsOnly.refl s

theorem abandonUp_only (k : Socket) (s : State) : RailsOnly s (abandonUp k s) := by
  unfold abandonUp
  split
  · exact RailsOnly.refl s
  · have one := (((abandonRail_only k .core s).trans (abandonRail_only k .aux _)).trans
      (setRun_only k none _))
    dsimp only
    split
    · exact one.trans (grantDecision_only _)
    · exact one

theorem stopRun_only (k : Socket) (s : State) : RailsOnly s (stopRun k s) := by
  unfold stopRun
  dsimp only
  refine RailsOnly.trans ?_ (startRun_only k _ _ _)
  split
  · exact abandonUp_only k s
  · exact RailsOnly.refl s

theorem tripCheck_only (k : Socket) (r : RailKind) (c : Nat) (s : State) :
    RailsOnly s (tripCheck k r c s) := by
  unfold tripCheck
  split
  · exact raiseFail_only _ s
  · exact RailsOnly.refl s

theorem passVerify_only (k : Socket) (r : RailKind) (s : State) : RailsOnly s (passVerify k r s) := by
  unfold passVerify
  split
  · exact nextStep_only k s
  · exact RailsOnly.refl s

theorem sequencerSample_only (k : Socket) (r : RailKind) (c : Nat) (s : State) :
    RailsOnly s (sequencerSample k r c s) :=
  (tripCheck_only k r c s).trans (passVerify_only k r _)

theorem endRise_only (k : Socket) (r : RailKind) (s : State) : RailsOnly s (endRise k r s) := by
  unfold endRise
  split
  · refine RailsOnly.trans (enterRail_only k r ⟨.on, none, (s.rail k r).code⟩ s)
      (RailsOnly.trans ?_ (grantDecision_only _))
    split
    · split
      · exact nextStep_only k _
      · exact RailsOnly.refl _
    · exact RailsOnly.refl _
  · exact RailsOnly.refl s

theorem afterFall_only (k : Socket) (r : RailKind) (s : State) : RailsOnly s (afterFall k r s) := by
  unfold afterFall
  split
  · exact RailsOnly.refl s
  · split
    · split
      · exact nextStep_only k s
      · exact RailsOnly.refl s
    · exact finishRun_only k s
    · split
      · exact joinList_only k r s
      · exact RailsOnly.refl s
    · exact RailsOnly.refl s

theorem endFall_only (k : Socket) (r : RailKind) (s : State) : RailsOnly s (endFall k r s) := by
  unfold endFall
  split
  · exact (enterRail_only k r _ s).trans (afterFall_only k r _)
  · exact RailsOnly.refl s

theorem endDwell_only (k : Socket) (s : State) : RailsOnly s (endDwell k s) := by
  unfold endDwell
  split
  · exact nextStep_only k s
  · exact RailsOnly.refl s

/-! ### The Socket Controller -/

/-- At most what an entry to STARTING or a stop order touches differs: the Rail Sequencer's fields, socket
records, control states, applied and active duties, heater outputs, windows and tick results. -/
def SocketsOnly (s t : State) : Prop :=
  t = { s with
    rails := t.rails
    runs := t.runs
    fails := t.fails
    supply :=
      { s.supply with
        measured := t.supply.measured, grantSum := t.supply.grantSum, applied := t.supply.applied }
    sockets := t.sockets
    heat := t.heat
    active := t.active
    heaterOn := t.heaterOn
    heaterOff := t.heaterOff
    mon := t.mon
    tickResult := t.tickResult }

theorem SocketsOnly.refl (s : State) : SocketsOnly s s := rfl

theorem SocketsOnly.eq {s t : State} (h : SocketsOnly s t) :
    t = { s with
      rails := t.rails
      runs := t.runs
      fails := t.fails
      supply :=
        { s.supply with
          measured := t.supply.measured, grantSum := t.supply.grantSum, applied := t.supply.applied }
      sockets := t.sockets
      heat := t.heat
      active := t.active
      heaterOn := t.heaterOn
      heaterOff := t.heaterOff
      mon := t.mon
      tickResult := t.tickResult } := h

theorem SocketsOnly.trans {s t u : State} (h : SocketsOnly s t) (g : SocketsOnly t u) :
    SocketsOnly s u := by
  unfold SocketsOnly at h g ⊢
  refine g.trans ?_
  rw [h]

theorem RailsOnly.toSockets {s t : State} (h : RailsOnly s t) : SocketsOnly s t := by
  unfold SocketsOnly
  unfold RailsOnly at h
  rw [h]

theorem SocketsOnly.board {s t : State} (h : SocketsOnly s t) : t.board = s.board :=
  (congrArg State.board h.eq :)
theorem SocketsOnly.mode {s t : State} (h : SocketsOnly s t) : t.mode = s.mode :=
  (congrArg State.mode h.eq :)
theorem SocketsOnly.profiles {s t : State} (h : SocketsOnly s t) : t.profiles = s.profiles :=
  (congrArg State.profiles h.eq :)
theorem SocketsOnly.pending {s t : State} (h : SocketsOnly s t) : t.pending = s.pending :=
  (congrArg State.pending h.eq :)
theorem SocketsOnly.log {s t : State} (h : SocketsOnly s t) : t.log = s.log := (congrArg State.log h.eq :)
theorem SocketsOnly.orders {s t : State} (h : SocketsOnly s t) : t.orders = s.orders :=
  (congrArg State.orders h.eq :)
theorem SocketsOnly.slots {s t : State} (h : SocketsOnly s t) : t.slots = s.slots :=
  (congrArg State.slots h.eq :)
theorem SocketsOnly.bus {s t : State} (h : SocketsOnly s t) : t.bus = s.bus := (congrArg State.bus h.eq :)
theorem SocketsOnly.policy {s t : State} (h : SocketsOnly s t) : t.policy = s.policy :=
  (congrArg State.policy h.eq :)

theorem modSock_only (k : Socket) (f : SocketRecord → SocketRecord) (s : State) :
    SocketsOnly s (s.modSock k f) := rfl
theorem modHeat_only (k : Socket) (f : HeatControl → HeatControl) (s : State) :
    SocketsOnly s (s.modHeat k f) := rfl
theorem modMon_only (k : Socket) (f : Monitor → Monitor) (s : State) :
    SocketsOnly s (s.modMon k f) := rfl
theorem setTickResult_only (k : Socket) (x : Option TickResult) (s : State) :
    SocketsOnly s (s.setTickResult k x) := rfl
theorem zeroHeat_only (k : Socket) (s : State) : SocketsOnly s (zeroHeat k s) := rfl
theorem discardWindow_only (k : Socket) (s : State) : SocketsOnly s (discardWindow k s) := rfl
theorem startHeat_only (k : Socket) (s : State) : SocketsOnly s (startHeat k s) := rfl

theorem enterStarting_only (k : Socket) (s : State) : SocketsOnly s (enterStarting k s) := by
  unfold enterStarting
  exact (((modSock_only k _ s).trans (setTickResult_only k _ _)).trans (startHeat_only k _)).trans
    (startRun_only k _ _ _).toSockets

theorem stopSocketBy_only (k : Socket) (d : OrderDest) (s : State) :
    SocketsOnly s (stopSocketBy k d s) := by
  unfold stopSocketBy
  exact (((stopRun_only k s).toSockets.trans (zeroHeat_only k _)).trans
    (discardWindow_only k _)).trans (modSock_only k _ _)

theorem takeOrder_only (o : StopOrder) (s : State) : SocketsOnly s (takeOrder o s) := by
  unfold takeOrder
  split
  · exact stopSocketBy_only _ _ s
  · exact stopSocketBy_only _ _ s
  · exact modSock_only _ _ s
  all_goals exact SocketsOnly.refl s

theorem useRetry_only (k : Socket) (s : State) : SocketsOnly s (useRetry k s) :=
  (modSock_only k _ s).trans (enterStarting_only k _)

theorem expireHold_only (k : Socket) (s : State) : SocketsOnly s (expireHold k s) := by
  unfold expireHold
  split
  · split
    · exact enterStarting_only k s
    · split
      · exact useRetry_only k s
      · exact modSock_only k _ s
    all_goals exact SocketsOnly.refl s
  · exact SocketsOnly.refl s

/-! ### Doing something for every socket -/

/-- A relation kept by each socket's part is kept by the whole, if it is reflexive and transitive. -/
theorem forSockets_rel (R : State → State → Prop) (hrefl : ∀ s, R s s)
    (htrans : ∀ s t u, R s t → R t u → R s u) (f : Socket → State → State)
    (hf : ∀ k s, R s (f k s)) (s : State) : R s (forSockets f s) := by
  have : ∀ (l : List Socket) (t : State), R t (l.foldl (fun t k => f k t) t) := by
    intro l
    induction l with
    | nil => exact hrefl
    | cons k rest ih => exact fun t => htrans _ _ _ (hf k t) (ih _)
  exact this allSockets s

/-! ### The Burst Engine -/

/-- At most slots, the bus, the pattern store's command and windows differ. -/
def BurstOnly (s t : State) : Prop :=
  t = { s with slots := t.slots, bus := t.bus, storeCommand := t.storeCommand, mon := t.mon }

theorem BurstOnly.refl (s : State) : BurstOnly s s := rfl

theorem BurstOnly.eq {s t : State} (h : BurstOnly s t) :
    t = { s with slots := t.slots, bus := t.bus, storeCommand := t.storeCommand, mon := t.mon } := h

theorem BurstOnly.trans {s t u : State} (h : BurstOnly s t) (g : BurstOnly t u) : BurstOnly s u := by
  unfold BurstOnly at h g ⊢
  refine g.trans ?_
  rw [h]

theorem BurstOnly.sockets {s t : State} (h : BurstOnly s t) : t.sockets = s.sockets :=
  (congrArg State.sockets h.eq :)
theorem BurstOnly.mode {s t : State} (h : BurstOnly s t) : t.mode = s.mode := (congrArg State.mode h.eq :)
theorem BurstOnly.pending {s t : State} (h : BurstOnly s t) : t.pending = s.pending :=
  (congrArg State.pending h.eq :)
theorem BurstOnly.board {s t : State} (h : BurstOnly s t) : t.board = s.board :=
  (congrArg State.board h.eq :)

theorem modSlot_only (i : SlotId) (f : Slot → Slot) (s : State) : BurstOnly s (s.modSlot i f) := rfl
theorem setWindow_only (k : Socket) (w : Option Window) (s : State) :
    BurstOnly s (setWindow k w s) := rfl

theorem noticeWindow_only (c : Contribution) (d : Nat) (k : Socket) (s : State) :
    BurstOnly s (noticeWindow c d k s) := by
  unfold noticeWindow
  split
  all_goals exact setWindow_only k _ s

theorem confirmWindow_only (k : Socket) (s : State) : BurstOnly s (confirmWindow k s) := by
  unfold confirmWindow
  split
  · split
    · exact setWindow_only k _ s
    · exact BurstOnly.refl s
  · exact BurstOnly.refl s

theorem withdrawWindow_only (k : Socket) (s : State) : BurstOnly s (withdrawWindow k s) := by
  unfold withdrawWindow
  split
  · split
    · exact setWindow_only k _ s
    · exact setWindow_only k _ s
  · exact BurstOnly.refl s

theorem forSet_only (m : Half) (f : Socket → State → State) (hf : ∀ k s, BurstOnly s (f k s))
    (s : State) : BurstOnly s (forSet m f s) := by
  unfold forSet
  refine forSockets_rel BurstOnly BurstOnly.refl (fun _ _ _ => BurstOnly.trans) _ ?_ s
  intro k t
  split
  · exact hf k t
  · exact BurstOnly.refl t

theorem startSlot_only (i : SlotId) (s : State) : BurstOnly s (startSlot i s) := by
  unfold startSlot
  dsimp only
  split
  · exact modSlot_only i _ s
  · refine BurstOnly.trans ?_ (forSet_only _ _ (fun k t => noticeWindow_only _ _ k t) _)
    rfl

theorem arbitrate_only (l : List SlotId) (s : State) : BurstOnly s (arbitrate l s) := by
  induction l generalizing s with
  | nil => exact BurstOnly.refl s
  | cons i rest ih =>
      unfold arbitrate
      split
      · exact (startSlot_only i s).trans (ih _)
      · exact ih s

theorem arbiterDecision_only (s : State) : BurstOnly s (arbiterDecision s) := by
  unfold arbiterDecision
  split
  · exact arbitrate_only _ s
  · exact BurstOnly.refl s

theorem judgeBurst_only (d : Bool) (b : Burst) (s : State) : BurstOnly s (judgeBurst d b s) := by
  unfold judgeBurst
  split
  · exact (forSet_only _ _ confirmWindow_only s).trans (modSlot_only _ _ _)
  · exact (forSet_only _ _ withdrawWindow_only s).trans (modSlot_only _ _ _)

theorem freeBus_only (s : State) : BurstOnly s (freeBus s) := rfl

theorem endBurst_only (d : Bool) (s : State) : BurstOnly s (endBurst d s) := by
  unfold endBurst
  split
  · exact BurstOnly.refl s
  · exact ((judgeBurst_only d _ s).trans (freeBus_only _)).trans (arbiterDecision_only _)

end Sys2Proof.Machine
end

