-- ==== Sys2Proof/Laws/Ops.lean ====
section
/-! SUPPORT. What the shared operations do, once for each: the hand-over of a command outside resets, the
operand readers, the walk over a profile's steps, profile runs, SAFE entry, windows, frames. Entries to
STARTING and stop orders stand in Laws/Runs.lean, the round end and the bus arbiter in
Laws/Decisions.lean. -/

namespace Sys2Proof.Machine

/-! ### Commands outside and inside resets -/

theorem outsideReset_run {s : State} (f : State → State) (h : s.resetting = none) :
    outsideReset s f = .next (f s) := by
  unfold outsideReset
  rw [h]

theorem outsideReset_held {s : State} (f : State → State) (h : s.resetting ≠ none) :
    outsideReset s f = .next s := by
  unfold outsideReset
  split
  · contradiction
  · rfl

/-! ### Operand readers -/

theorem socketOf_val {n : Byte} {k : Socket} (h : k.val = n.toNat) : socketOf n = some k := by
  unfold socketOf
  rw [dif_pos (by omega)]
  congr 1
  ext
  simp [h]

theorem socketOf_none {n : Byte} (h : 15 < n.toNat) : socketOf n = none := by
  unfold socketOf
  rw [dif_neg (by omega)]

theorem slotOf_val {n : Byte} {i : SlotId} (h : i.val = n.toNat) : slotOf n = some i := by
  unfold slotOf
  rw [dif_pos (by omega)]
  congr 1
  ext
  simp [h]

theorem slotOf_none {n : Byte} (h : 7 < n.toNat) : slotOf n = none := by
  unfold slotOf
  rw [dif_neg (by omega)]

theorem profileOf_val {n : Byte} {p : ProfileId} (h : p.val = n.toNat) : profileOf n = some p := by
  unfold profileOf
  rw [dif_pos (by omega)]
  congr 1
  ext
  simp [h]

theorem profileOf_none {n : Byte} (h : 3 < n.toNat) : profileOf n = none := by
  unfold profileOf
  rw [dif_neg (by omega)]

theorem edgeOf_code {b : Byte} {e : EdgeSelection} (h : e.code = b.toNat) : edgeOf b = some e := by
  unfold edgeOf
  rw [← h]
  cases e <;> rfl

theorem dispatchOf_code {b : Byte} {d : Dispatch} (h : d.code = b.toNat) : dispatchOf b = some d := by
  unfold dispatchOf
  rw [← h]
  cases d <;> rfl

theorem retryOf_code {b : Byte} {r : Retry} (h : r.code = b.toNat) : retryOf b = some r := by
  unfold retryOf
  rw [← h]
  cases r <;> rfl

theorem actionOf_code {b : Byte} {a : PolicyAction} (h : a.code = b.toNat) : actionOf b = some a := by
  unfold actionOf
  rw [← h]
  cases a <;> rfl

theorem failKindOf_code {b : Byte} {f : FailKind} (h : (kindIndex f).val = b.toNat) :
    failKindOf b = some f := by
  unfold failKindOf
  rw [← h]
  cases f <;> rfl

/-- One step of SetProfile: a bad one names no step. -/
theorem stepOf_bad {x : RawStep} (h : BadStep x) : stepOf x = none := by
  obtain ⟨k, r, a, b⟩ := x
  unfold BadStep at h
  unfold stepOf railOf
  dsimp only at h ⊢
  generalize k.toNat = k at *
  generalize r.toNat = r at *
  rcases k with _ | _ | _ | _ | k <;> rcases r with _ | _ | r <;> simp at h ⊢ <;> omega

theorem stepOf_sound {x : RawStep} (h : ¬BadStep x) : stepOf x = some (stepMeant x) := by
  obtain ⟨k, r, a, b⟩ := x
  unfold BadStep at h
  unfold stepOf stepMeant railOf
  dsimp only at h ⊢
  generalize k.toNat = k at *
  generalize r.toNat = r at *
  rcases k with _ | _ | _ | _ | k <;> rcases r with _ | _ | r <;> simp at h ⊢ <;> omega

theorem stepsOf_sound {l : List RawStep} (h : ∀ x ∈ l, ¬BadStep x) :
    stepsOf l = some (l.map stepMeant) := by
  induction l with
  | nil => rfl
  | cons x xs ih =>
      simp only [stepsOf, stepOf_sound (h x (by simp)), ih fun y hy => h y (by simp [hy]), List.map_cons]

theorem stepsOf_bad {l : List RawStep} (h : ∃ x ∈ l, BadStep x) : stepsOf l = none := by
  induction l with
  | nil => simp at h
  | cons x xs ih =>
      unfold stepsOf
      obtain ⟨y, hy, hb⟩ := h
      rcases List.mem_cons.mp hy with rfl | hy
      · rw [stepOf_bad hb]
      · rw [ih ⟨y, hy, hb⟩]
        cases stepOf x <;> rfl

/-! ### Grant decisions and profile runs -/

theorem grantDecision_nil {s : State} (h : s.waitingList = []) : grantDecision s = s := by
  unfold grantDecision
  rw [h]
  rfl

/-- Every run of `t` was there in `s`, with its direction and profile. -/
def RunsKept (s t : State) : Prop :=
  ∀ j x, t.run j = some x → ∃ y, s.run j = some y ∧ y.direction = x.direction ∧ y.profile = x.profile

theorem RunsKept.of_eq {s t : State} (h : t.runs = s.runs) : RunsKept s t := by
  intro j x hx
  refine ⟨x, ?_, rfl, rfl⟩
  rw [← hx]
  simp only [State.run, h]

theorem RunsKept.refl (s : State) : RunsKept s s := .of_eq rfl

theorem RunsKept.trans {s t u : State} (h : RunsKept s t) (g : RunsKept t u) : RunsKept s u := by
  intro j x hx
  obtain ⟨y, hy, hd, hp⟩ := g j x hx
  obtain ⟨z, hz, hd', hp'⟩ := h j y hy
  exact ⟨z, hz, hd'.trans hd, hp'.trans hp⟩

theorem setRun_runsKept {k : Socket} {s : State} {v : Option Run}
    (h : ∀ x, v = some x → ∃ y, s.run k = some y ∧ y.direction = x.direction ∧ y.profile = x.profile) :
    RunsKept s (s.setRun k v) := by
  intro j x hx
  by_cases hj : j = k
  · subst hj
    exact h x (by simpa [State.run, State.setRun] using hx)
  · refine ⟨x, ?_, rfl, rfl⟩
    simpa [State.run, State.setRun, look_put_other _ _ _ _ hj] using hx

theorem setCond_runsKept (k : Socket) (c : StepCondition) (s : State) : RunsKept s (setCond k c s) := by
  unfold setCond
  split
  · rename_i y hy
    refine setRun_runsKept fun x hx => ⟨y, hy, ?_⟩
    cases hx
    exact ⟨rfl, rfl⟩
  · exact .refl s

theorem setStep_runsKept (k : Socket) (i : Nat) (c : StepCondition) (s : State) :
    RunsKept s (setStep k i c s) := by
  unfold setStep
  split
  · rename_i y hy
    refine setRun_runsKept fun x hx => ⟨y, hy, ?_⟩
    cases hx
    exact ⟨rfl, rfl⟩
  · exact .refl s

theorem enterRail_runsKept (k : Socket) (r : RailKind) (x : Rail) (s : State) :
    RunsKept s (enterRail k r x s) := .of_eq rfl

theorem regFaultCheck_runsKept (k : Socket) (b : Bool) (s : State) :
    RunsKept s (regFaultCheck k b s) := by
  unfold regFaultCheck
  split
  · exact .of_eq rfl
  · exact .refl s

theorem grantRail_runsKept (k : Socket) (r : RailKind) (s : State) : RunsKept s (grantRail k r s) := by
  unfold grantRail
  dsimp only
  refine RunsKept.trans ?_ (regFaultCheck_runsKept k _ _)
  refine RunsKept.trans ?_ (setCond_runsKept k _ _)
  exact .of_eq rfl

theorem grantAll_runsKept (l : List (Socket × RailKind)) (s : State) : RunsKept s (grantAll l s) := by
  induction l generalizing s with
  | nil => exact .refl s
  | cons x rest ih =>
      obtain ⟨k, r⟩ := x
      unfold grantAll
      split
      · exact (grantRail_runsKept k r s).trans (ih _)
      · exact .refl s

theorem grantDecision_runsKept (s : State) : RunsKept s (grantDecision s) := grantAll_runsKept _ s

theorem joinList_runsKept (k : Socket) (r : RailKind) (s : State) : RunsKept s (joinList k r s) := by
  unfold joinList
  exact ((enterRail_runsKept k r _ s).trans (setCond_runsKept k _ _)).trans (grantDecision_runsKept _)

theorem dropRail_runs (k : Socket) (r : RailKind) (s : State) : (dropRail k r s).runs = s.runs := by
  unfold dropRail
  split <;> rfl

theorem finishRun_runsKept (k : Socket) (s : State) : RunsKept s (finishRun k s) := by
  unfold finishRun
  split
  · exact .refl s
  · split
    · exact setRun_runsKept fun x hx => by cases hx
    · have hdrop : RunsKept s (dropBoth k s) :=
        .of_eq ((dropRail_runs k .aux _).trans (dropRail_runs k .core s))
      have hend : RunsKept s
          (if bothOff k (dropBoth k s) = true then (dropBoth k s).setRun k none
            else setCond k .falling (dropBoth k s)) := by
        split
        · exact hdrop.trans (setRun_runsKept fun x hx => by cases hx)
        · exact hdrop.trans (setCond_runsKept k _ _)
      dsimp only
      split
      · exact hend.trans (grantDecision_runsKept _)
      · exact hend

theorem runSteps_runsKept (l : List Step) (i : Nat) (k : Socket) (s : State) :
    RunsKept s (runSteps l i k s) := by
  induction l generalizing i s with
  | nil => exact finishRun_runsKept k s
  | cons x rest ih =>
      unfold runSteps
      split
      · split
        · exact (setStep_runsKept k i _ s).trans (joinList_runsKept k _ _)
        · exact (setStep_runsKept k i _ s).trans (ih _ _)
        all_goals exact setStep_runsKept k i _ s
      · split
        · exact (setStep_runsKept k i _ s).trans (.of_eq (dropRail_runs k _ _))
        · exact ((setStep_runsKept k i _ s).trans (.of_eq (dropRail_runs k _ _))).trans
            (grantDecision_runsKept _)
        · exact setStep_runsKept k i _ s
        · exact ((setStep_runsKept k i _ s).trans (.of_eq (dropRail_runs k _ _))).trans (ih _ _)
        · exact (setStep_runsKept k i _ s).trans (ih _ _)
      · exact setStep_runsKept k i _ s
      · exact setStep_runsKept k i _ s

/-- A run that is there after a start has the direction and the profile it was started with. -/
theorem startRun_shape (k : Socket) (d : RunDirection) (p : ProfileId) (s : State) (x : Run)
    (h : (startRun k d p s).run k = some x) : x.direction = d ∧ x.profile = p := by
  obtain ⟨y, hy, hd, hp⟩ := runSteps_runsKept _ _ k _ k x h
  have : y = ⟨d, p, 1, .sample⟩ := by
    simpa [State.run, State.setRun] using hy.symm
  subst this
  exact ⟨hd.symm, hp.symm⟩

/-! ### SAFE entry -/

theorem enterSafe_safe {c : SafeCause} {s : State} (h : s.mode = .safe) : enterSafe c s = s := by
  unfold enterSafe
  rw [if_pos h]

theorem safeRecord_resolved (bin hold : Nat) (r : SocketRecord) :
    safeRecord bin hold r = safeResolved bin hold r := by
  unfold safeRecord safeResolved destOf
  cases r.state <;> cases r.stopDest <;> try rfl
  all_goals rename_i d; cases d <;> rfl

theorem enterSafe_spec {c : SafeCause} {s : State} (h : s.mode ≠ .safe) :
    EntersSafe c s (enterSafe c s) := by
  unfold enterSafe
  rw [if_neg h]
  refine ⟨rfl, rfl, rfl, ?_, rfl, ?_, rfl, rfl, ?_, ?_, ?_, ?_, ?_⟩
  · intro k
    simp [resolveSafe, stopBus, stopTimers, cutAllHeat, safeCut, resetSupply, State.run]
  · intro k
    simp [resolveSafe, stopBus, stopTimers, cutAllHeat, safeCut, resetSupply]
  · intro i
    simp only [resolveSafe, stopBus, stopTimers, cutAllHeat, safeCut, resetSupply, State.slot, abortAny,
      look_tab8]
    split <;> simp_all
  · intro k
    refine Eq.trans ?_ (safeRecord_resolved _ _ _)
    simp [resolveSafe, stopBus, stopTimers, cutAllHeat, safeCut, resetSupply, State.sock, retireBin,
      policyBin]
  · intro k
    exact look_tab16 _ k
  · intro k
    exact look_tab16 _ k
  · rcases hb : s.bus with _ | b
    · simp only [resolveSafe, stopBus, stopTimers, cutAllHeat, safeCut, resetSupply, if_true]
    · simp only [resolveSafe, stopBus, stopTimers, cutAllHeat, safeCut, resetSupply, reduceCtorEq, if_false]

/-! ### Windows -/

/-- What acts on the windows of single sockets acts on those of a set. -/
theorem forSockets_mon (g : Socket → Monitor → Monitor) (f : Socket → State → State)
    (hf : ∀ k s, f k s = { s with mon := put s.mon k (g k (look s.mon k)) }) (l : List Socket)
    (hn : l.Nodup) (s : State) :
    l.foldl (fun t k => f k t) s
      = { s with mon := tab16 fun k => if k ∈ l then g k (look s.mon k) else look s.mon k } := by
  induction l generalizing s with
  | nil => simp [tab16_look]
  | cons a l ih =>
      rw [List.foldl_cons, ih (List.nodup_cons.mp hn).2, hf]
      congr 1
      refine table_ext fun i => ?_
      simp only [look_tab16, List.mem_cons]
      by_cases h : i = a
      · subst h
        simp [(List.nodup_cons.mp hn).1]
      · simp [h, look_put_other _ _ _ _ h]

theorem forSet_mon (m : Half) (g : Socket → Monitor → Monitor) (f : Socket → State → State)
    (hf : ∀ k s, f k s = { s with mon := put s.mon k (g k (look s.mon k)) }) (s : State) :
    forSet m f s
      = { s with mon := tab16 fun k =>
          if inSet m k = true then g k (look s.mon k) else look s.mon k } := by
  unfold forSet forSockets
  rw [forSockets_mon (fun k x => if inSet m k = true then g k x else x) _ ?_ _ allSockets_nodup]
  · simp
  · intro k s
    by_cases h : inSet m k = true <;> simp [h, hf]

/-- A window replaced by itself leaves the monitor as it is. -/
theorem sameWindow {m : Monitor} {o : Option Window} (h : m.window = o) :
    ({ m with window := o } : Monitor) = m := by
  subst h
  rfl

theorem noticeWindow_eq (c : Contribution) (d : Nat) (k : Socket) (s : State) :
    noticeWindow c d k s = { s with mon := put s.mon k { look s.mon k with
      window := match (look s.mon k).window with
        | none => some ⟨0, 0, 0, 0, some c, d⟩
        | some w => some { w with waiting := some c, closeAt := d } } } := by
  unfold noticeWindow windowOf
  cases h : (look s.mon k).window <;> rfl

theorem confirmWindow_eq (k : Socket) (s : State) :
    confirmWindow k s = { s with mon := put s.mon k { look s.mon k with
      window := (look s.mon k).window.bind fun w => some (match w.waiting with
        | some c => { w with
            confirmedMin := satAdd 65535 w.confirmedMin c.minimum
            confirmedMax := satAdd 65535 w.confirmedMax c.maximum
            confirmed := satAdd 65535 w.confirmed 1
            waiting := none }
        | none => w) } } := by
  unfold confirmWindow windowOf
  cases h : (look s.mon k).window with
  | none => simp [sameWindow h]
  | some w =>
      cases hw : w.waiting
      · simp [hw, sameWindow h]
      · simp [hw, setWindow, State.modMon]

theorem withdrawWindow_eq (k : Socket) (s : State) :
    withdrawWindow k s = { s with mon := put s.mon k { look s.mon k with
      window := (look s.mon k).window.bind fun w =>
        if w.confirmed = 0 then none else some { w with waiting := none } } } := by
  unfold withdrawWindow windowOf
  cases h : (look s.mon k).window with
  | none => simp [sameWindow h]
  | some w => by_cases hw : w.confirmed = 0 <;> simp [hw, setWindow, discardWindow, State.modMon]

/-! ### Frames -/

theorem halfAt_put2 (l : List Byte) (c : Half) : halfAt (l ++ put2 c.toNat) l.length = c.toNat := by
  have := c.isLt
  simp [halfAt, byteAt, put2]
  omega

theorem frame_length (a kind tag : Nat) (p : List Byte) : (frame a kind tag p).length = p.length + 7 := by
  simp [frame, put1, put2]

/-- The CRC of a frame is that of its address, length, kind, tag and payload. -/
theorem frame_crc (a kind tag : Nat) (p : List Byte) : crcMatches (frame a kind tag p) = true := by
  unfold crcMatches
  dsimp only
  have hb : frame a kind tag p
      = (0xC3#8 :: (put1 a ++ put1 p.length ++ put1 kind ++ put1 tag ++ p))
        ++ put2 (crc16 (put1 a ++ put1 p.length ++ put1 kind ++ put1 tag ++ p)).toNat := rfl
  have hl : (frame a kind tag p).length - 2
      = (0xC3#8 :: (put1 a ++ put1 p.length ++ put1 kind ++ put1 tag ++ p)).length := by
    rw [frame_length]
    simp [put1]
  rw [hl, hb, halfAt_put2, List.take_left]
  simp

/-- The identity memory that holds a record ends with the CRC of the record's bytes. -/
theorem image_crc (x : BoardRecord) (n : Nat) (h : (recordImage x).length = n) :
    (crc16 ((imageOf x).take n)).toNat = halfAt (imageOf x) n := by
  subst h
  unfold imageOf
  rw [halfAt_put2, List.take_left]

end Sys2Proof.Machine
end

