-- ==== Sys2Proof/Laws/Runs.lean ====
section
/-! SUPPORT. What a grant decision and a profile run do at each socket, and with that what an entry to
STARTING and a stop order are: `EntersStarting`, `Stops`, `StopFrame` of Safety.lean. -/

namespace Sys2Proof.Machine

/-! ### Grants -/

theorem GrantedAtMost.refl (j : Socket) (s : State) : GrantedAtMost j s s :=
  ⟨fun _ => .inl rfl, .inl rfl⟩

theorem GrantedAtMost.of_eq {j : Socket} {s t : State} (hr : ∀ q, t.rail j q = s.rail j q)
    (hx : t.run j = s.run j) : GrantedAtMost j s t :=
  ⟨fun q => .inl (hr q), .inl hx⟩

theorem GrantedAtMost.trans {j : Socket} {s t u : State} (h : GrantedAtMost j s t)
    (g : GrantedAtMost j t u) : GrantedAtMost j s u := by
  refine ⟨fun q => ?_, ?_⟩
  · rcases h.1 q with h1 | ⟨h1, h2⟩
    · rcases g.1 q with g1 | ⟨g1, g2⟩
      · exact .inl (g1.trans h1)
      · exact .inr ⟨by rw [← h1]; exact g1, g2⟩
    · rcases g.1 q with g1 | ⟨g1, g2⟩
      · exact .inr ⟨h1, by rw [g1]; exact h2⟩
      · exact absurd (g1.symm.trans h2) (by decide)
  · rcases h.2 with h1 | ⟨x, h1, h2⟩
    · rcases g.2 with g1 | ⟨y, g1, g2⟩
      · exact .inl (g1.trans h1)
      · exact .inr ⟨y, h1.symm.trans g1, g2⟩
    · rcases g.2 with g1 | ⟨y, g1, g2⟩
      · exact .inr ⟨x, h1, g1.trans h2⟩
      · rw [h2] at g1
        cases g1
        exact .inr ⟨x, h1, g2⟩

/-- An update of one socket's rails leaves the others'. -/
theorem enterRail_rail (k : Socket) (r : RailKind) (x : Rail) (s : State) (j : Socket) (q : RailKind) :
    (enterRail k r x s).rail j q = if j = k ∧ q = r then x else s.rail j q := by
  by_cases h : j = k
  · subst h
    simp [enterRail, setMark, writeRail, State.rail, get_set]
  · simp [enterRail, setMark, writeRail, State.rail, look_put_other _ _ _ _ h, h]

theorem setRun_run (k : Socket) (x : Option Run) (s : State) (j : Socket) :
    (s.setRun k x).run j = if j = k then x else s.run j := by
  simp only [State.run, State.setRun, look_put]

theorem setCond_run (k : Socket) (c : StepCondition) (s : State) (j : Socket) :
    (setCond k c s).run j = if j = k then (s.run k).map fun x => { x with cond := c } else s.run j := by
  unfold setCond
  by_cases h : j = k
  · subst h
    split
    · rename_i x hx
      rw [setRun_run, if_pos rfl, if_pos rfl, hx]
      rfl
    · rename_i hx
      simp [hx]
  · split
    · rw [setRun_run, if_neg h, if_neg h]
    · rw [if_neg h]

theorem setCond_rails (k : Socket) (c : StepCondition) (s : State) : (setCond k c s).rails = s.rails := by
  unfold setCond
  split <;> rfl

theorem regFaultCheck_rails (k : Socket) (b : Bool) (s : State) :
    (regFaultCheck k b s).rails = s.rails := by
  unfold regFaultCheck
  split <;> rfl

theorem regFaultCheck_runs (k : Socket) (b : Bool) (s : State) :
    (regFaultCheck k b s).runs = s.runs := by
  unfold regFaultCheck
  split <;> rfl

theorem rail_of_rails {s t : State} (h : t.rails = s.rails) (j : Socket) (q : RailKind) :
    t.rail j q = s.rail j q := by
  simp only [State.rail, h]

theorem run_of_runs {s t : State} (h : t.runs = s.runs) (j : Socket) : t.run j = s.run j := by
  simp only [State.run, h]

/-- A grant: the rail rises and its run shows RISING; every other rail and run stands. -/
theorem grantRail_rail (k : Socket) (r : RailKind) (s : State) (j : Socket) (q : RailKind) :
    (grantRail k r s).rail j q
      = if j = k ∧ q = r then
          ⟨.rising, some (s.now + 1000 * (s.brd.rail.get r).riseMs), s.effSetpoint k r / 5⟩
        else s.rail j q := by
  unfold grantRail
  dsimp only
  rw [rail_of_rails (regFaultCheck_rails _ _ _), rail_of_rails (setCond_rails _ _ _)]
  exact enterRail_rail k r _ s j q

theorem grantRail_run (k : Socket) (r : RailKind) (s : State) (j : Socket) :
    (grantRail k r s).run j
      = if j = k then (s.run k).map fun x => { x with cond := .rising } else s.run j := by
  unfold grantRail
  dsimp only
  rw [run_of_runs (regFaultCheck_runs _ _ _), setCond_run]
  rfl

theorem waitingList_mem {s : State} {k : Socket} {r : RailKind} :
    (k, r) ∈ s.waitingList ↔ (s.rail k r).state = .waitGrant := by
  unfold State.waitingList State.waitingOf
  simp only [List.mem_flatMap, mem_allSockets, true_and, List.mem_append]
  constructor
  · rintro ⟨a, h | h⟩
    · split at h
      · simp at h
        obtain ⟨rfl, rfl⟩ := h
        assumption
      · simp at h
    · split at h
      · simp at h
        obtain ⟨rfl, rfl⟩ := h
        assumption
      · simp at h
  · intro h
    refine ⟨k, ?_⟩
    cases r
    · exact .inl (by simp [h])
    · exact .inr (by simp [h])

theorem waitingList_nodup (s : State) : s.waitingList.Nodup := by
  unfold State.waitingList
  rw [List.nodup_flatMap]
  refine ⟨fun k _ => ?_, ?_⟩
  · unfold State.waitingOf
    split <;> split <;> simp
  · refine allSockets_nodup.imp ?_
    intro a b hab
    unfold State.waitingOf Function.onFun
    rw [List.disjoint_left]
    intro x hx hy
    have ha : x.1 = a := by
      rw [List.mem_append] at hx
      rcases hx with hx | hx <;> split at hx <;> simp at hx <;> simp [hx]
    have hb : x.1 = b := by
      rw [List.mem_append] at hy
      rcases hy with hx | hx <;> split at hx <;> simp at hx <;> simp [hx]
    exact hab (ha.symm.trans hb)

theorem grantRail_granted {k : Socket} {r : RailKind} {s : State} (h : (s.rail k r).state = .waitGrant)
    (j : Socket) : GrantedAtMost j s (grantRail k r s) := by
  refine ⟨fun q => ?_, ?_⟩
  · rw [grantRail_rail]
    by_cases hq : j = k ∧ q = r
    · obtain ⟨rfl, rfl⟩ := hq
      exact .inr ⟨h, by simp⟩
    · exact .inl (if_neg hq)
  · rw [grantRail_run]
    by_cases hj : j = k
    · subst hj
      rw [if_pos rfl]
      rcases hx : s.run j with _ | x
      · exact .inl rfl
      · exact .inr ⟨x, rfl, rfl⟩
    · exact .inl (if_neg hj)

theorem grantAll_granted {l : List (Socket × RailKind)} {s : State} (hn : l.Nodup)
    (hw : ∀ k r, (k, r) ∈ l → (s.rail k r).state = .waitGrant) (j : Socket) :
    GrantedAtMost j s (grantAll l s) := by
  induction l generalizing s with
  | nil => exact .refl j s
  | cons e rest ih =>
      obtain ⟨k, r⟩ := e
      unfold grantAll
      split
      · refine (grantRail_granted (hw k r (by simp)) j).trans (ih (List.nodup_cons.mp hn).2 ?_)
        intro a b hab
        rw [grantRail_rail, if_neg]
        · exact hw a b (by simp [hab])
        · rintro ⟨rfl, rfl⟩
          exact (List.nodup_cons.mp hn).1 hab
      · exact .refl j s

theorem grantDecision_granted (s : State) (j : Socket) : GrantedAtMost j s (grantDecision s) :=
  grantAll_granted (waitingList_nodup s) (fun _ _ h => waitingList_mem.mp h) j

/-! ### The steps of one socket's run, seen from another socket -/

theorem enterRail_other {j k : Socket} (h : j ≠ k) (r : RailKind) (x : Rail) (s : State) :
    GrantedAtMost j s (enterRail k r x s) :=
  .of_eq (fun q => by rw [enterRail_rail, if_neg fun g => h g.1]) rfl

theorem setRun_other {j k : Socket} (h : j ≠ k) (x : Option Run) (s : State) :
    GrantedAtMost j s (s.setRun k x) :=
  .of_eq (fun _ => rfl) (by rw [setRun_run, if_neg h])

theorem setCond_other {j k : Socket} (h : j ≠ k) (c : StepCondition) (s : State) :
    GrantedAtMost j s (setCond k c s) := by
  unfold setCond
  split
  · exact setRun_other h _ s
  · exact .refl j s

theorem setStep_other {j k : Socket} (h : j ≠ k) (i : Nat) (c : StepCondition) (s : State) :
    GrantedAtMost j s (setStep k i c s) := by
  unfold setStep
  split
  · exact setRun_other h _ s
  · exact .refl j s

theorem joinList_other {j k : Socket} (h : j ≠ k) (r : RailKind) (s : State) :
    GrantedAtMost j s (joinList k r s) := by
  unfold joinList
  exact ((enterRail_other h r _ s).trans (setCond_other h _ _)).trans (grantDecision_granted _ j)

theorem dropRail_other {j k : Socket} (h : j ≠ k) (r : RailKind) (s : State) :
    GrantedAtMost j s (dropRail k r s) := by
  unfold dropRail
  split
  all_goals first | exact enterRail_other h r _ s | exact .refl j s

theorem finishRun_other {j k : Socket} (h : j ≠ k) (s : State) : GrantedAtMost j s (finishRun k s) := by
  unfold finishRun
  split
  · exact .refl j s
  · split
    · exact setRun_other h _ s
    · have hdrop : GrantedAtMost j s (dropBoth k s) :=
        (dropRail_other h .core s).trans (dropRail_other h .aux _)
      have hend : GrantedAtMost j s
          (if bothOff k (dropBoth k s) = true then (dropBoth k s).setRun k none
            else setCond k .falling (dropBoth k s)) := by
        split
        · exact hdrop.trans (setRun_other h _ _)
        · exact hdrop.trans (setCond_other h _ _)
      dsimp only
      split
      · exact hend.trans (grantDecision_granted _ j)
      · exact hend

theorem runSteps_other {j k : Socket} (h : j ≠ k) (l : List Step) (i : Nat) (s : State) :
    GrantedAtMost j s (runSteps l i k s) := by
  induction l generalizing i s with
  | nil => exact finishRun_other h s
  | cons x rest ih =>
      unfold runSteps
      split
      · split
        · exact (setStep_other h i _ s).trans (joinList_other h _ _)
        · exact (setStep_other h i _ s).trans (ih _ _)
        all_goals exact setStep_other h i _ s
      · split
        · exact (setStep_other h i _ s).trans (dropRail_other h _ _)
        · exact ((setStep_other h i _ s).trans (dropRail_other h _ _)).trans (grantDecision_granted _ j)
        · exact setStep_other h i _ s
        · exact ((setStep_other h i _ s).trans (dropRail_other h _ _)).trans (ih _ _)
        · exact (setStep_other h i _ s).trans (ih _ _)
      · exact setStep_other h i _ s
      · exact setStep_other h i _ s

theorem startRun_other {j k : Socket} (h : j ≠ k) (d : RunDirection) (p : ProfileId) (s : State) :
    GrantedAtMost j s (startRun k d p s) :=
  (setRun_other h _ s).trans (runSteps_other h _ _ _)

theorem abandonRail_other {j k : Socket} (h : j ≠ k) (r : RailKind) (s : State) :
    GrantedAtMost j s (abandonRail k r s) := by
  unfold abandonRail
  split
  all_goals first | exact dropRail_other h r s | exact .refl j s

theorem abandonUp_other {j k : Socket} (h : j ≠ k) (s : State) : GrantedAtMost j s (abandonUp k s) := by
  unfold abandonUp
  split
  · exact .refl j s
  · have one := ((abandonRail_other h .core s).trans (abandonRail_other h .aux _)).trans
      (setRun_other h none _)
    dsimp only
    split
    · exact one.trans (grantDecision_granted _ j)
    · exact one

theorem stopRun_other {j k : Socket} (h : j ≠ k) (s : State) : GrantedAtMost j s (stopRun k s) := by
  unfold stopRun
  dsimp only
  refine GrantedAtMost.trans ?_ (startRun_other h _ _ _)
  split
  · exact abandonUp_other h s
  · exact .refl j s

/-! ### Where a run stands that begins with a RAISE -/

/-- The rail that waits for socket `k`'s run is the only one of `k` that waits, and the run shows it. -/
def Raising (k : Socket) (p : ProfileId) (q : RailKind) (t : State) : Prop :=
  RaisesFirst k p q t ∧ ∀ r, r ≠ q → (t.rail k r).state ≠ .waitGrant

theorem grantAll_raising {k : Socket} {p : ProfileId} {q : RailKind} {l : List (Socket × RailKind)}
    {s : State} (h : Raising k p q s) (hl : ∀ r, (k, r) ∈ l → r = q) :
    Raising k p q (grantAll l s) := by
  induction l generalizing s with
  | nil => exact h
  | cons e rest ih =>
      obtain ⟨a, r⟩ := e
      unfold grantAll
      split
      · refine ih ?_ fun b hb => hl b (by simp [hb])
        by_cases ha : k = a
        · subst ha
          obtain rfl := hl r (by simp)
          refine ⟨.inr ⟨?_, ?_⟩, ?_⟩
          · rw [grantRail_run, if_pos rfl]
            rcases h.1 with ⟨g, -⟩ | ⟨g, -⟩ <;> rw [g] <;> rfl
          · rw [grantRail_rail, if_pos ⟨rfl, rfl⟩]
          · intro b hb
            rw [grantRail_rail, if_neg fun g => hb g.2]
            exact h.2 b hb
        · refine ⟨?_, ?_⟩
          · unfold RaisesFirst
            rw [grantRail_run, if_neg ha, grantRail_rail, if_neg fun g => ha g.1]
            exact h.1
          · intro b hb
            rw [grantRail_rail, if_neg fun g => ha g.1]
            exact h.2 b hb
      · exact h

theorem runStarted_raises {k : Socket} {p : ProfileId} {q : RailKind} {rest : List Step} {s : State}
    (hp : look s.profiles p = .raise q :: rest) (ho : bothOff k s = true) :
    RaisesFirst k p q (runStarted k .up p s) := by
  have hoff : ∀ r, (s.rail k r).state = .off := by
    simp only [bothOff, Bool.and_eq_true, beq_iff_eq] at ho
    intro r
    cases r
    · exact ho.1
    · exact ho.2
  unfold runStarted
  rw [hp]
  unfold runSteps
  have hq : ((({ s with runs := put s.runs k (some ⟨.up, p, 1, .sample⟩) } : State).rail k q).state)
      = .off := hoff q
  simp only [hq]
  have hs : setStep k 1 .waitGrant { s with runs := put s.runs k (some ⟨.up, p, 1, .sample⟩) }
      = s.setRun k (some ⟨.up, p, 1, .waitGrant⟩) := by
    unfold setStep
    simp [State.run, State.setRun]
  rw [hs]
  unfold joinList grantDecision
  have base : Raising k p q (setCond k .waitGrant (enterRail k q ⟨.waitGrant, none, 0⟩
      (s.setRun k (some ⟨.up, p, 1, .waitGrant⟩)))) := by
    refine ⟨.inl ⟨?_, ?_⟩, ?_⟩
    · rw [setCond_run, if_pos rfl]
      have : (enterRail k q ⟨.waitGrant, none, 0⟩ (s.setRun k (some ⟨.up, p, 1, .waitGrant⟩))).run k
          = some ⟨.up, p, 1, .waitGrant⟩ := by simp [enterRail, setMark, writeRail, State.run, State.setRun]
      rw [this]
      rfl
    · rw [rail_of_rails (setCond_rails _ _ _), enterRail_rail, if_pos ⟨rfl, rfl⟩]
    · intro b hb
      rw [rail_of_rails (setCond_rails _ _ _), enterRail_rail, if_neg fun g => hb g.2]
      show (s.rail k b).state ≠ .waitGrant
      rw [hoff b]
      decide
  refine (grantAll_raising base ?_).1
  intro r hr
  by_contra hne
  exact base.2 r hne (waitingList_mem.mp hr)

/-! ### The statements' words for the Rail Sequencer's operations -/

theorem startRun_eq (k : Socket) (d : RunDirection) (p : ProfileId) (s : State) :
    startRun k d p s = runStarted k d p s := rfl

theorem dropRail_eq (k : Socket) (r : RailKind) (s : State) : dropRail k r s = railDropped k r s := by
  unfold dropRail railDropped
  cases (s.rail k r).state <;> rfl

theorem abandonRail_eq (k : Socket) (r : RailKind) (s : State) :
    abandonRail k r s = if stopsRising k r s = true then railDropped k r s else s := by
  unfold abandonRail stopsRising
  rw [← dropRail_eq]
  cases (s.rail k r).state <;> rfl

theorem abandonUp_eq {k : Socket} {s : State} (h : s.run k ≠ none) : abandonUp k s = abandoned k s := by
  have hkeep : stopsRising k .aux (abandonRail k .core s) = stopsRising k .aux s := by
    have : (abandonRail k .core s).rail k .aux = s.rail k .aux := by
      unfold abandonRail dropRail
      cases (s.rail k .core).state <;> first | rfl | exact (enterRail_rail _ _ _ _ _ _).trans (if_neg (by simp))
    unfold stopsRising
    rw [this]
  have htouch : (decide (s.risingOf k ≠ 0) || !(s.waitingOf k).isEmpty)
      = (stopsRising k .core s || stopsRising k .aux s) := by
    unfold State.risingOf State.waitingOf stopsRising
    cases (s.rail k .core).state <;> cases (s.rail k .aux).state <;> rfl
  unfold abandonUp abandoned
  rcases hx : s.run k with _ | x
  · exact absurd hx h
  · dsimp only
    rw [htouch, abandonRail_eq k .aux, hkeep, abandonRail_eq k .core]
    rfl

theorem stopRun_eq (k : Socket) (s : State) : stopRun k s = downStarted k s := by
  unfold stopRun downStarted
  dsimp only
  rw [startRun_eq]
  by_cases h : (s.sock k).state = .starting
  · by_cases hx : s.run k = none
    · have : abandonUp k s = s := by
        unfold abandonUp
        rw [hx]
      simp [h, hx, this]
    · rw [if_pos h, if_pos ⟨h, hx⟩, abandonUp_eq hx, ← abandonUp_eq hx]
      congr 1
      rw [(abandonUp_only k s).sock]
  · rw [if_neg h, if_neg fun g => h g.1]

/-! ### Entry to STARTING -/

/-- The state in which the up-profile of an entry to STARTING begins. -/
theorem enterStarting_eq (k : Socket) (s : State) :
    enterStarting k s = runStarted k .up (s.sock k).params.upProfile { s with
      sockets := put s.sockets k (startingRecord (s.sock k))
      heat := put s.heat k (startingHeat s k)
      tickResult := put s.tickResult k none } := by
  unfold enterStarting
  rw [startRun_eq]
  congr 1
  simp [startHeat, State.modHeat, State.modSock, State.setTickResult, State.sock, startRecord,
    startingRecord, startingHeat, State.validTemp]

theorem enterStarting_spec (k : Socket) (s : State) : EntersStarting k (s.sock k) s (enterStarting k s) := by
  have he := enterStarting_eq k s
  rw [he]
  generalize hu : ({ s with
      sockets := put s.sockets k (startingRecord (s.sock k))
      heat := put s.heat k (startingHeat s k)
      tickResult := put s.tickResult k none } : State) = u
  have ho := startRun_only k .up (s.sock k).params.upProfile u
  have hx := startRun_shape k .up (s.sock k).params.upProfile u
  have hj := fun j (h : j ≠ k) => startRun_other h .up (s.sock k).params.upProfile u
  rw [startRun_eq] at ho hx
  simp only [startRun_eq] at hj
  subst hu
  refine ⟨?_, ?_, ho.heat, ho.tickResult, hx, ?_, fun j h => hj j h, rfl, ?_⟩
  · refine (ho.sock k).trans ?_
    simp [State.sock]
  · intro j h
    refine (ho.sock j).trans ?_
    simp [State.sock, look_put_other _ _ _ _ h]
  · intro q rest hp hoff
    exact runStarted_raises hp hoff
  · rw [ho.eq]

/-- The entry with a changed record, as a retry makes it. -/
theorem enterStarting_modSock (k : Socket) (f : SocketRecord → SocketRecord) (s : State)
    (hp : (f (s.sock k)).params = (s.sock k).params) :
    EntersStarting k (f (s.sock k)) s (enterStarting k (s.modSock k f)) := by
  obtain ⟨h1, h2, h3, h4, h5, h6, h7, h8, h9⟩ := enterStarting_spec k (s.modSock k f)
  have hk : (s.modSock k f).sock k = f (s.sock k) := by simp [State.sock]
  have hh : startingHeat (s.modSock k f) k = startingHeat s k := by
    simp only [startingHeat, hk, hp]
    rfl
  rw [hk] at h1 h5 h6 h8
  refine ⟨h1, fun j hj => (h2 j hj).trans ?_, h3.trans ?_, h4, h5, h6, h7, ?_, ?_⟩
  · simp [State.sock, look_put_other _ _ _ _ hj]
  · rw [hh]
    rfl
  · rw [h8, hh]
    simp
  · rw [h9]
    rfl

/-! ### Stop orders -/

/-- What a stop does after the Rail Sequencer's part. -/
def afterStopRun (k : Socket) (d : OrderDest) (t : State) : State :=
  (discardWindow k (zeroHeat k t)).modSock k (stopRecord d)

theorem afterStopRun_frame (k : Socket) (d : OrderDest) (t : State) :
    afterStopRun k d t = { t with
      sockets := put t.sockets k (stopRecord d (t.sock k))
      heat := put t.heat k { look t.heat k with demand := 0 }
      supply := { t.supply with applied := put t.supply.applied k 0 }
      active := put t.active k 0
      heaterOn := put t.heaterOn k false
      heaterOff := put t.heaterOff k none
      mon := put t.mon k { look t.mon k with window := none } } := rfl

theorem downStarted_shape (k : Socket) (s : State) (x : Run) (h : (downStarted k s).run k = some x) :
    x.direction = .down ∧ x.profile = (s.sock k).params.downProfile :=
  startRun_shape k .down _ _ x h

theorem stopSocketBy_stops (k : Socket) (d : OrderDest) (s : State) :
    Stops k d s (stopSocketBy k d s) := by
  have ho := stopRun_only k s
  have hj := fun j (h : j ≠ k) => stopRun_other h s
  have he : stopSocketBy k d s = afterStopRun k d (stopRun k s) := rfl
  rw [he, afterStopRun_frame]
  rw [stopRun_eq] at ho ⊢
  simp only [stopRun_eq] at hj
  have hx := downStarted_shape k s
  unfold Stops
  generalize downStarted k s = t at ho hx hj ⊢
  have h1 : stopRecord d (s.sock k) = stoppedRecord d (s.sock k) := by cases d <;> rfl
  refine ⟨?_, ?_, ?_, ?_, ?_, ?_, ?_, ?_, hx, rfl, rfl, rfl, rfl, rfl, hj, ?_⟩
  · simp only [State.sock, look_put_same]
    rw [ho.sockets]
    exact h1
  · intro j h
    simp [State.sock, look_put_other _ _ _ _ h, ho.sockets]
  · simp [ho.heat]
  · simp
  · simp
  · simp
  · simp
  · simp [ho.mon]
  · intro j h
    have hoff : t.heaterOff = s.heaterOff := (congrArg State.heaterOff ho.eq :)
    simp [look_put_other _ _ _ _ h, ho.heat, ho.mon, ho.active, ho.heaterOn, ho.applied, hoff]

theorem stopSocketBy_frame (k : Socket) (d : OrderDest) (s : State) :
    StopFrame s (stopSocketBy k d s) := by
  have ho := stopRun_only k s
  have he : stopSocketBy k d s = afterStopRun k d (stopRun k s) := rfl
  rw [he, afterStopRun_frame]
  generalize stopRun k s = t at ho
  unfold StopFrame
  rw [ho.eq]

theorem stopSocketBy_orders (k : Socket) (d : OrderDest) (s : State) :
    (stopSocketBy k d s).orders = s.orders := (stopSocketBy_only k d s).orders

theorem takeOrder_live {o : StopOrder} {s : State} (h : s.live o.socket = true) :
    takeOrder o s = stopSocketBy o.socket o.dest s := by
  unfold takeOrder
  unfold State.live at h
  revert h
  cases (s.sock o.socket).state <;> simp

theorem takeOrder_idle {o : StopOrder} {s : State} (h : s.busy o.socket = false) :
    takeOrder o s = s := by
  unfold takeOrder
  unfold State.busy at h
  revert h
  cases (s.sock o.socket).state <;> simp

theorem takeOrder_stopping {o : StopOrder} {s : State} (h : (s.sock o.socket).state = .stopping) :
    takeOrder o s = s.modSock o.socket (restopRecord o.dest) := by
  unfold takeOrder
  rw [h]

/-! ### Steps and conditions of a run that stands -/

theorem setStep_stands {k : Socket} {x : Run} {s : State} (h : s.run k = some x) (i : Nat)
    (c : StepCondition) : setStep k i c s = runStands k x i c s := by
  unfold setStep
  rw [h]
  rfl

theorem setCond_stands {k : Socket} {x : Run} {s : State} (h : s.run k = some x) (c : StepCondition) :
    setCond k c s = runStands k x x.step c s := by
  unfold setCond
  rw [h]
  rfl

theorem runStands_run (k : Socket) (x : Run) (i : Nat) (c : StepCondition) (s : State) :
    (runStands k x i c s).run k = some { x with step := i, cond := c } := by
  simp [runStands, State.run]

/-! ### The fails a run can raise -/

/-- The fails in flight of `t` are those of `s` and REG_FAULTs after them: what grants raise (R64). -/
def RegFaultsOnly (s t : State) : Prop :=
  ∃ more, t.fails = s.fails ++ more ∧ ∀ f ∈ more, f.kind = .regFault

theorem RegFaultsOnly.of_eq {s t : State} (h : t.fails = s.fails) : RegFaultsOnly s t :=
  ⟨[], by simp [h], by simp⟩

theorem RegFaultsOnly.trans {s t u : State} (h : RegFaultsOnly s t) (g : RegFaultsOnly t u) :
    RegFaultsOnly s u := by
  obtain ⟨a, ha, ka⟩ := h
  obtain ⟨b, hb, kb⟩ := g
  refine ⟨a ++ b, by rw [hb, ha, List.append_assoc], fun f hf => ?_⟩
  rcases List.mem_append.mp hf with hf | hf
  · exact ka f hf
  · exact kb f hf

theorem setCond_fails (k : Socket) (c : StepCondition) (s : State) : (setCond k c s).fails = s.fails := by
  unfold setCond
  split <;> rfl

theorem setStep_fails (k : Socket) (i : Nat) (c : StepCondition) (s : State) :
    (setStep k i c s).fails = s.fails := by
  unfold setStep
  split <;> rfl

theorem enterRail_fails (k : Socket) (r : RailKind) (x : Rail) (s : State) :
    (enterRail k r x s).fails = s.fails := rfl

theorem dropRail_fails (k : Socket) (r : RailKind) (s : State) : (dropRail k r s).fails = s.fails := by
  unfold dropRail
  split <;> first | exact enterRail_fails _ _ _ _ | rfl

theorem grantRail_fails (k : Socket) (r : RailKind) (s : State) : RegFaultsOnly s (grantRail k r s) := by
  unfold grantRail regFaultCheck
  dsimp only
  split
  · exact ⟨_, congrArg (· ++ _) (setCond_fails _ _ _), by simp⟩
  · exact .of_eq (setCond_fails _ _ _)

theorem grantAll_fails (l : List (Socket × RailKind)) (s : State) : RegFaultsOnly s (grantAll l s) := by
  induction l generalizing s with
  | nil => exact .of_eq rfl
  | cons e rest ih =>
      obtain ⟨k, r⟩ := e
      unfold grantAll
      split
      · exact (grantRail_fails k r s).trans (ih _)
      · exact .of_eq rfl

theorem grantDecision_fails (s : State) : RegFaultsOnly s (grantDecision s) := grantAll_fails _ s

theorem joinList_fails (k : Socket) (r : RailKind) (s : State) : RegFaultsOnly s (joinList k r s) := by
  have h : (setCond k .waitGrant (enterRail k r ⟨.waitGrant, none, 0⟩ s)).fails = s.fails :=
    (setCond_fails _ _ _).trans (enterRail_fails _ _ _ _)
  unfold joinList
  exact (RegFaultsOnly.of_eq h).trans (grantDecision_fails _)

theorem finishRun_fails (k : Socket) (s : State) : RegFaultsOnly s (finishRun k s) := by
  unfold finishRun
  split
  · exact .of_eq rfl
  · split
    · exact .of_eq rfl
    · have hd : (dropBoth k s).fails = s.fails := (dropRail_fails _ _ _).trans (dropRail_fails _ _ _)
      have he : RegFaultsOnly s (if bothOff k (dropBoth k s) = true then
          (dropBoth k s).setRun k none else setCond k .falling (dropBoth k s)) := by
        split
        · exact .of_eq hd
        · exact .of_eq ((setCond_fails _ _ _).trans hd)
      dsimp only
      split
      · exact he.trans (grantDecision_fails _)
      · exact he

/-- The steps of a run raise no fail but the REG_FAULTs of grants. -/
theorem runSteps_fails (l : List Step) (i : Nat) (k : Socket) (s : State) :
    RegFaultsOnly s (runSteps l i k s) := by
  induction l generalizing i s with
  | nil => exact finishRun_fails k s
  | cons x rest ih =>
      have hset := fun c => RegFaultsOnly.of_eq (setStep_fails k i c s)
      have hdrop := fun r c => RegFaultsOnly.of_eq ((dropRail_fails k r _).trans (setStep_fails k i c s))
      unfold runSteps
      split
      · split
        · exact (hset _).trans (joinList_fails _ _ _)
        · exact (hset _).trans (ih _ _)
        all_goals exact hset _
      · split
        · exact hdrop _ _
        · exact (hdrop _ _).trans (grantDecision_fails _)
        · exact hset _
        · exact (hdrop _ _).trans (ih _ _)
        · exact (hset _).trans (ih _ _)
      all_goals exact hset _

end Sys2Proof.Machine
end

