-- ==== Sys2Proof/Laws/Decisions.lean ====
section
/-! SUPPORT. What the round end of the Supply Allotter and a decision of the bus arbiter do: `RoundEnds` and
`Arbitrated` of Safety.lean; and the lists of rails that wait or rise. -/

namespace Sys2Proof.Machine

/-! ### The inrush waiting list and the rails that rise -/

theorem waitingList_railsIn (s : State) : s.waitingList = railsIn .waitGrant s := by
  unfold State.waitingList railsIn
  rw [List.filter_flatMap]
  refine List.flatMap_congr fun k _ => ?_
  unfold State.waitingOf
  simp only [List.filter_cons, List.filter_nil]
  cases (s.rail k .core).state <;> cases (s.rail k .aux).state <;> rfl

theorem risingCount_railsIn (s : State) : s.risingCount = (railsIn .rising s).length := by
  have h : ∀ (l : List Socket) (n : Nat), l.foldl (fun n k => n + s.risingOf k) n
      = n + ((l.flatMap fun k => [(k, RailKind.core), (k, .aux)]).filter fun e =>
          decide ((s.rail e.1 e.2).state = .rising)).length := by
    intro l
    induction l with
    | nil => exact fun n => rfl
    | cons k rest ih =>
        intro n
        rw [List.foldl_cons, ih, List.flatMap_cons, List.filter_append, List.length_append]
        have : s.risingOf k = ([(k, RailKind.core), (k, .aux)].filter fun e =>
            decide ((s.rail e.1 e.2).state = .rising)).length := by
          unfold State.risingOf
          simp only [List.filter_cons, List.filter_nil]
          cases (s.rail k .core).state <;> cases (s.rail k .aux).state <;> rfl
        omega
  unfold State.risingCount railsIn
  rw [h]
  omega

/-! ### The round end -/

theorem contributionOf_share (s : State) (k : Socket) (r : RailKind) :
    contributionOf s k r = railShare s k r := by
  unfold contributionOf railShare State.maxPower State.railPower State.currentOf
  cases (s.rail k r).state <;> cases (look s.supply.measured k).get r <;> try rfl
  all_goals cases (look s.scan.current k).get r <;> simp

theorem socketShare_allot (s : State) (k : Socket) :
    socketShare (allot s) k = railShare s k .core + railShare s k .aux := by
  unfold socketShare allot
  simp [contributionOf_share]

/-- The fold over the sockets keeps the STRESSING socket with the largest share met so far. -/
theorem shedFold (P : Socket → Prop) [DecidablePred P] (f : Socket → Nat)
    (l : List Socket) (hl : l.Pairwise (· < ·)) (best : Option Socket)
    (hb : ∀ b, best = some b → P b ∧ ∀ j ∈ l, b < j) :
    match l.foldl (fun best k => if P k then
        match best with
        | none => some k
        | some b => if f b < f k then some k else best
      else best) best with
    | none => best = none ∧ ∀ j ∈ l, ¬P j
    | some k => P k ∧ (k ∈ l ∨ best = some k)
        ∧ (∀ j, (j ∈ l ∨ best = some j) → P j → f j ≤ f k)
        ∧ ∀ j, (j ∈ l ∨ best = some j) → P j → j < k → f j < f k := by
  induction l generalizing best with
  | nil =>
      rcases best with _ | b
      · exact ⟨rfl, by simp⟩
      · refine ⟨(hb b rfl).1, .inr rfl, ?_, ?_⟩
        · rintro j (h | h) _
          · simp at h
          · cases h; exact le_refl _
        · rintro j (h | h) _ hj
          · simp at h
          · cases h; exact absurd hj (lt_irrefl _)
  | cons a l ih =>
      rw [List.foldl_cons]
      have hl' := List.pairwise_cons.mp hl
      by_cases ha : P a
      · rw [if_pos ha]
        rcases best with _ | b
        · have := ih hl'.2 (some a) (by rintro b hb; cases hb; exact ⟨ha, hl'.1⟩)
          revert this
          generalize List.foldl _ (some a) l = o
          intro this
          rcases o with _ | k
          · exact absurd this.1 (by simp)
          · obtain ⟨h1, h2, h3, h4⟩ := this
            refine ⟨h1, ?_, ?_, ?_⟩
            · rcases h2 with h2 | h2
              · exact .inl (by simp [h2])
              · cases h2; exact .inl (by simp)
            · rintro j (hj | hj) hp
              · rcases List.mem_cons.mp hj with rfl | hj
                · exact h3 _ (.inr rfl) hp
                · exact h3 _ (.inl hj) hp
              · cases hj
            · rintro j (hj | hj) hp
              · rcases List.mem_cons.mp hj with rfl | hj
                · exact h4 _ (.inr rfl) hp
                · exact h4 _ (.inl hj) hp
              · cases hj
        · obtain ⟨hpb, hlt⟩ := hb b rfl
          dsimp only
          by_cases hf : f b < f a
          · rw [if_pos hf]
            have := ih hl'.2 (some a) (by rintro c hc; cases hc; exact ⟨ha, hl'.1⟩)
            revert this
            generalize List.foldl _ (some a) l = o
            intro this
            rcases o with _ | k
            · exact absurd this.1 (by simp)
            · obtain ⟨h1, h2, h3, h4⟩ := this
              have hak := h3 a (.inr rfl) ha
              refine ⟨h1, ?_, ?_, ?_⟩
              · rcases h2 with h2 | h2
                · exact .inl (by simp [h2])
                · cases h2; exact .inl (by simp)
              · rintro j (hj | hj) hp
                · rcases List.mem_cons.mp hj with rfl | hj
                  · exact hak
                  · exact h3 _ (.inl hj) hp
                · cases hj; omega
              · rintro j (hj | hj) hp hjk
                · rcases List.mem_cons.mp hj with rfl | hj
                  · exact h4 _ (.inr rfl) hp hjk
                  · exact h4 _ (.inl hj) hp hjk
                · cases hj; omega
          · rw [if_neg hf]
            have := ih hl'.2 (some b) (by
              rintro c hc; cases hc; exact ⟨hpb, fun j hj => hlt j (by simp [hj])⟩)
            revert this
            generalize List.foldl _ (some b) l = o
            intro this
            rcases o with _ | k
            · exact absurd this.1 (by simp)
            · obtain ⟨h1, h2, h3, h4⟩ := this
              have hbk := h3 b (.inr rfl) hpb
              refine ⟨h1, ?_, ?_, ?_⟩
              · rcases h2 with h2 | h2
                · exact .inl (by simp [h2])
                · exact .inr h2
              · rintro j (hj | hj) hp
                · rcases List.mem_cons.mp hj with rfl | hj
                  · omega
                  · exact h3 _ (.inl hj) hp
                · exact h3 _ (.inr hj) hp
              · rintro j (hj | hj) hp hk
                · rcases List.mem_cons.mp hj with rfl | hj
                  · have := h4 b (.inr rfl) hpb (lt_trans (hlt _ (by simp)) hk)
                    omega
                  · exact h4 _ (.inl hj) hp hk
                · exact h4 _ (.inr hj) hp hk
      · rw [if_neg ha]
        have := ih hl'.2 best (fun b hbb => ⟨(hb b hbb).1, fun j hj => (hb b hbb).2 j (by simp [hj])⟩)
        revert this
        generalize List.foldl _ best l = o
        intro this
        rcases o with _ | k
        · refine ⟨this.1, fun j hj => ?_⟩
          rcases List.mem_cons.mp hj with rfl | hj
          · exact ha
          · exact this.2 j hj
        · obtain ⟨h1, h2, h3, h4⟩ := this
          refine ⟨h1, ?_, ?_, ?_⟩
          · rcases h2 with h2 | h2
            · exact .inl (by simp [h2])
            · exact .inr h2
          · rintro j (hj | hj) hp
            · rcases List.mem_cons.mp hj with rfl | hj
              · exact absurd hp ha
              · exact h3 _ (.inl hj) hp
            · exact h3 _ (.inr hj) hp
          · rintro j (hj | hj) hp
            · rcases List.mem_cons.mp hj with rfl | hj
              · exact absurd hp ha
              · exact h4 _ (.inl hj) hp
            · exact h4 _ (.inr hj) hp

theorem shedChoice_spec (s : State) :
    (shedChoice s = none → ∀ k, (s.sock k).state ≠ .stressing)
      ∧ ∀ k, shedChoice s = some k → (s.sock k).state = .stressing
        ∧ (∀ j, (s.sock j).state = .stressing → socketShare s j ≤ socketShare s k)
        ∧ ∀ j, j < k → (s.sock j).state = .stressing → socketShare s j < socketShare s k := by
  have h := shedFold (fun k => (s.sock k).state = .stressing) (socketShare s) allSockets (by decide)
    none (by simp)
  have he : allSockets.foldl (fun best k => if (s.sock k).state = .stressing then
        match best with
        | none => some k
        | some b => if socketShare s b < socketShare s k then some k else best
      else best) none = shedChoice s := rfl
  rw [he] at h
  refine ⟨fun hn k => ?_, fun k hk => ?_⟩
  · rw [hn] at h
    exact h.2 k (by simp)
  · rw [hk] at h
    exact ⟨h.1, fun j hj => h.2.2.1 j (by simp) hj, fun j hlt hj => h.2.2.2 j (by simp) hj hlt⟩

/-- A round end is the allotment, the grant decision and the overload check (R94). -/
theorem roundEnd_spec (s : State) : RoundEnds s (roundEnd s) := by
  have hlim : (allot s).bulkLimit = s.bulkLimit := rfl
  have hover : (allot s).supply.overload = s.supply.overload := rfl
  have hcheck := shedChoice_spec (allot s)
  refine ⟨fun h => ?_, fun h h0 => ?_, fun h h1 => ⟨fun hn => ?_, fun k hk => ?_⟩⟩
  · have : overloadCheck (allot s) = (0, none) := by
      unfold overloadCheck
      rw [if_pos (by rw [hlim]; exact h)]
    unfold roundEnd
    simp only [this]
  · have : overloadCheck (allot s) = (1, none) := by
      unfold overloadCheck
      rw [if_neg (by rw [hlim]; omega), if_pos (by rw [hover]; exact h0)]
    unfold roundEnd
    simp only [this]
  · have hs : shedChoice (allot s) = none := by
      rcases hc : shedChoice (allot s) with _ | k
      · rfl
      · exact absurd (hcheck.2 k hc).1 (hn k)
    have : overloadCheck (allot s) = (0, none) := by
      unfold overloadCheck
      rw [if_neg (by rw [hlim]; omega), if_neg (by rw [hover]; exact h1), hs]
    unfold roundEnd
    simp only [this]
  · obtain ⟨hk1, hk2, hk3⟩ := hk
    dsimp only at hk2 hk3
    have hs : shedChoice (allot s) = some k := by
      rcases hc : shedChoice (allot s) with _ | b
      · exact absurd hk1 (hcheck.1 hc k)
      · obtain ⟨g1, g2, g3⟩ := hcheck.2 b hc
        simp only [socketShare_allot] at g2 g3
        rcases lt_trichotomy b k with hbk | hbk | hbk
        · have := hk3 b hbk g1
          have := g2 k hk1
          omega
        · rw [hbk]
        · have := g3 k hbk hk1
          have := hk2 b g1
          omega
    have : overloadCheck (allot s) = (0, some k) := by
      unfold overloadCheck
      rw [if_neg (by rw [hlim]; omega), if_neg (by rw [hover]; exact h1), hs]
    unfold roundEnd
    simp only [this]
    have hlive : ∀ u : State, u.sockets = s.sockets → u.live k = true := by
      intro u hu
      have : (u.sock k).state = .stressing := by
        simpa only [State.sock, hu] using hk1
      simp [State.live, this]
    split
    · refine .inr ⟨_, stopSocketBy_stops k .toShedHold _, stopSocketBy_frame k _ _,
        stopSocketBy_orders k _ _, ?_, ?_⟩
      · exact (congrArg State.answer (stopSocketBy_only k _ _).eq :)
      · congr 1
        exact takeOrder_live (o := ⟨k, .toShedHold⟩) (hlive _ rfl)
    · refine .inl ?_
      unfold State.issueOrder
      rw [(grantDecision_only _).orders]
      rfl

/-! ### The bus arbiter -/

/-- A decision with a burst on the bus, or with no slot PENDING, changes nothing. -/
theorem arbitrate_none {l : List SlotId} {s : State}
    (h : s.bus ≠ none ∨ ∀ i ∈ l, (s.slot i).state ≠ .pending) : arbitrate l s = s := by
  induction l with
  | nil => rfl
  | cons a l ih =>
      unfold arbitrate
      rw [if_neg, ih]
      · rcases h with h | h
        · exact Or.inl h
        · exact Or.inr fun i hi => h i (by simp [hi])
      · rintro ⟨hb, ha⟩
        rcases h with h | h
        · exact h hb
        · exact h a (by simp) ha

/-- A decision with one slot PENDING and a free bus starts that slot. -/
theorem arbitrate_one {i : SlotId} {s : State} (hb : s.bus = none) (hi : (s.slot i).state = .pending)
    (ho : ∀ j, j ≠ i → (s.slot j).state ≠ .pending)
    (hs : ∀ j, j ≠ i → ((startSlot i s).slot j).state ≠ .pending) {l : List SlotId} (hl : i ∈ l)
    (hn : l.Nodup) : arbitrate l s = startSlot i s := by
  induction l with
  | nil => simp at hl
  | cons a l ih =>
      unfold arbitrate
      by_cases h : a = i
      · subst h
        rw [if_pos ⟨hb, hi⟩, arbitrate_none]
        refine Or.inr fun j hj => hs j ?_
        rintro rfl
        exact (List.nodup_cons.mp hn).1 hj
      · rw [if_neg fun hp => ho a h hp.2]
        exact ih (by simpa [Ne.symm h] using hl) (List.nodup_cons.mp hn).2

theorem effectiveMask_reaches (i : SlotId) (s : State) :
    effectiveMask i s = setOf (burstReaches s i) := by
  unfold effectiveMask burstReaches
  congr 1

theorem setOf_zero {f : Socket → Bool} : setOf f = 0#16 ↔ ∀ k, f k = false := by
  constructor
  · intro h k
    rw [← inSet_setOf f k, h]
    simp [inSet]
  · intro h
    have : f = fun _ => false := funext h
    rw [this]
    decide

theorem startSlot_skip {i : SlotId} {s : State} (h : ∀ k, burstReaches s i k = false) :
    startSlot i s = { s with slots := put s.slots i (skippedSlot (s.slot i)) } := by
  unfold startSlot
  dsimp only
  rw [effectiveMask_reaches, if_pos (setOf_zero.mpr h)]
  rfl

theorem burstMicros_eq (length period : Nat) :
    burstMicros length period = (length * period + 999) / 1000 := by
  unfold burstMicros ceilDiv
  congr 1

/-- A window notice to the sockets of a mask (R121, R122). -/
theorem forSet_notice (m : Half) (c : Contribution) (d : Nat) (s : State) :
    forSet m (noticeWindow c d) s = { s with
      mon := tab16 fun k =>
        if inSet m k = true then
          { look s.mon k with window := match (look s.mon k).window with
            | none => some ⟨0, 0, 0, 0, some c, d⟩
            | some w => some { w with waiting := some c, closeAt := d } }
        else look s.mon k } :=
  forSet_mon m (fun _ x => { x with window := match x.window with
    | none => some ⟨0, 0, 0, 0, some c, d⟩
    | some w => some { w with waiting := some c, closeAt := d } }) _ (noticeWindow_eq c d) s

theorem startSlot_start {i : SlotId} {s : State} (h : ∃ k, burstReaches s i k = true) :
    startSlot i s = { s with
      slots := put s.slots i
        { s.slot i with state := .active, sent := satAdd 65535 (s.slot i).sent 1 }
      bus := some ⟨i, setOf (burstReaches s i),
        s.now + ((s.slot i).length * s.brd.vectorPeriod + 999) / 1000⟩
      storeCommand := some (.play (s.slot i).pattern (s.slot i).length)
      mon := tab16 fun k => if burstReaches s i k = true then
          { look s.mon k with window := match (look s.mon k).window with
            | none => some ⟨0, 0, 0, 0, some ⟨i, (s.slot i).edgeMin, (s.slot i).edgeMax⟩,
                s.now + ((s.slot i).length * s.brd.vectorPeriod + 999) / 1000
                  + 1000 * s.brd.latency⟩
            | some w => some { w with
                waiting := some ⟨i, (s.slot i).edgeMin, (s.slot i).edgeMax⟩
                closeAt := s.now + ((s.slot i).length * s.brd.vectorPeriod + 999) / 1000
                  + 1000 * s.brd.latency } }
        else look s.mon k } := by
  unfold startSlot
  dsimp only
  rw [effectiveMask_reaches, if_neg, forSet_notice]
  · simp only [burstMicros_eq, inSet_setOf]
    rfl
  · rw [setOf_zero]
    obtain ⟨k, hk⟩ := h
    intro hn
    rw [hn k] at hk
    cases hk

/-- Slots before the first that starts are skipped where they are PENDING. -/
theorem arbitrate_spec (l : List SlotId) (hl : l.Pairwise (· < ·)) (s : State) (hb : s.bus = none) :
    (∀ i ∈ l, Startable s i → (∀ j ∈ l, j < i → ¬Startable s j) →
      arbitrate l s = startSlot i { s with slots := tab8 fun j =>
        if j ∈ l ∧ j < i ∧ (s.slot j).state = .pending then skippedSlot (s.slot j) else s.slot j })
    ∧ ((∀ i ∈ l, ¬Startable s i) →
      arbitrate l s = { s with slots := tab8 fun j =>
        if j ∈ l ∧ (s.slot j).state = .pending then skippedSlot (s.slot j) else s.slot j }) := by
  induction l generalizing s with
  | nil =>
      refine ⟨fun i hi => by simp at hi, fun _ => ?_⟩
      have : (tab8 fun j => if j ∈ ([] : List SlotId) ∧ (s.slot j).state = .pending then
          skippedSlot (s.slot j) else s.slot j) = s.slots := by
        refine table_ext fun j => ?_
        simp [State.slot]
      rw [this]
      rfl
  | cons a l ih =>
      have hl' := List.pairwise_cons.mp hl
      have hna : a ∉ l := fun h => lt_irrefl _ (hl'.1 a h)
      unfold arbitrate
      by_cases hp : (s.slot a).state = .pending
      · rw [if_pos ⟨hb, hp⟩]
        by_cases hr : ∃ k, burstReaches s a k = true
        · have hst : Startable s a := ⟨hp, hr⟩
          have hbus : arbitrate l (startSlot a s) = startSlot a s := by
            refine arbitrate_none (.inl ?_)
            rw [startSlot_start hr]
            exact nofun
          refine ⟨fun i hi hsi hlow => ?_, fun hn => absurd hst (hn a (by simp))⟩
          rcases List.mem_cons.mp hi with rfl | hi
          · have : (tab8 fun j => if j ∈ i :: l ∧ j < i ∧ (s.slot j).state = .pending then
                skippedSlot (s.slot j) else s.slot j) = s.slots := by
              refine table_ext fun j => ?_
              rw [look_tab8, if_neg]
              · rfl
              · rintro ⟨hj, hlt, -⟩
                rcases List.mem_cons.mp hj with rfl | hj
                · exact lt_irrefl _ hlt
                · exact absurd (hl'.1 j hj) (not_lt.mpr hlt.le)
            rw [this]
            exact hbus
          · exact absurd hst (hlow a (by simp) (hl'.1 i hi))
        · have hr' : ∀ k, burstReaches s a k = false := by
            intro k
            by_contra h
            exact hr ⟨k, by simpa using h⟩
          have hsk := startSlot_skip hr'
          generalize hu : startSlot a s = u at hsk
          have hslot : ∀ j, u.slot j = if j = a then skippedSlot (s.slot a) else s.slot j := by
            intro j
            rw [hsk]
            simp only [State.slot, look_put]
          have hreach : ∀ j, j ≠ a → ∀ k, burstReaches u j k = burstReaches s j k := by
            intro j hj k
            unfold burstReaches
            rw [hslot, if_neg hj, hsk]
            rfl
          have hstart : ∀ j ∈ l, (Startable u j ↔ Startable s j) := by
            intro j hj
            have hja : j ≠ a := fun h => hna (h ▸ hj)
            unfold Startable
            rw [hslot, if_neg hja]
            simp only [hreach j hja]
          have hub : u.bus = none := by rw [hsk]; exact hb
          have htab : ∀ i, a < i → (tab8 fun j => if j ∈ l ∧ j < i ∧ (u.slot j).state = .pending then
                skippedSlot (u.slot j) else u.slot j)
              = tab8 fun j => if j ∈ a :: l ∧ j < i ∧ (s.slot j).state = .pending then
                skippedSlot (s.slot j) else s.slot j := by
            intro i hi
            refine table_ext fun j => ?_
            simp only [look_tab8, hslot, List.mem_cons]
            by_cases hja : j = a
            · subst hja
              simp [hna, hi, hp]
            · simp [hja]
          have htab' : (tab8 fun j => if j ∈ l ∧ (u.slot j).state = .pending then
                skippedSlot (u.slot j) else u.slot j)
              = tab8 fun j => if j ∈ a :: l ∧ (s.slot j).state = .pending then
                skippedSlot (s.slot j) else s.slot j := by
            refine table_ext fun j => ?_
            simp only [look_tab8, hslot, List.mem_cons]
            by_cases hja : j = a
            · subst hja
              simp [hna, hp]
            · simp [hja]
          have hns : ¬Startable s a := fun h => hr h.2
          obtain ⟨ih1, ih2⟩ := ih hl'.2 u hub
          refine ⟨fun i hi hsi hlow => ?_, fun hn => ?_⟩
          · rcases List.mem_cons.mp hi with rfl | hi
            · exact absurd hsi hns
            · rw [ih1 i hi ((hstart i hi).mpr hsi) fun j hj hlt h =>
                hlow j (by simp [hj]) hlt ((hstart j hj).mp h), htab i (hl'.1 i hi)]
              congr 1
              rw [hsk]
          · rw [ih2 fun i hi h => hn i (by simp [hi]) ((hstart i hi).mp h), htab']
            rw [hsk]
      · rw [if_neg fun h => hp h.2]
        have hns : ¬Startable s a := fun h => hp h.1
        obtain ⟨ih1, ih2⟩ := ih hl'.2 s hb
        have htab : ∀ i, (tab8 fun j => if j ∈ l ∧ j < i ∧ (s.slot j).state = .pending then
              skippedSlot (s.slot j) else s.slot j)
            = tab8 fun j => if j ∈ a :: l ∧ j < i ∧ (s.slot j).state = .pending then
              skippedSlot (s.slot j) else s.slot j := by
          intro i
          refine table_ext fun j => ?_
          simp only [look_tab8, List.mem_cons]
          by_cases hja : j = a
          · subst hja
            simp [hp]
          · simp [hja]
        have htab' : (tab8 fun j => if j ∈ l ∧ (s.slot j).state = .pending then
              skippedSlot (s.slot j) else s.slot j)
            = tab8 fun j => if j ∈ a :: l ∧ (s.slot j).state = .pending then
              skippedSlot (s.slot j) else s.slot j := by
          refine table_ext fun j => ?_
          simp only [look_tab8, List.mem_cons]
          by_cases hja : j = a
          · subst hja
            simp [hp]
          · simp [hja]
        refine ⟨fun i hi hsi hlow => ?_, fun hn => ?_⟩
        · rcases List.mem_cons.mp hi with rfl | hi
          · exact absurd hsi hns
          · rw [ih1 i hi hsi fun j hj hlt => hlow j (by simp [hj]) hlt, htab i]
        · rw [ih2 fun i hi => hn i (by simp [hi]), htab']

theorem skippable_iff {s : State} {j : SlotId} (h : ¬Startable s j) :
    Skippable s j ↔ (s.slot j).state = .pending := by
  constructor
  · exact fun g => g.1
  · intro g
    refine ⟨g, fun k => ?_⟩
    by_contra hk
    exact h ⟨g, k, by simpa using hk⟩

/-- A decision of the bus arbiter starts the lowest-numbered PENDING slot that reaches a socket (R108). -/
theorem arbiterDecision_spec (s : State) : Arbitrated s (arbiterDecision s) := by
  refine ⟨fun h => ?_, fun hm hb => ⟨fun i hi hlow => ?_, fun hn => ?_⟩⟩
  · unfold arbiterDecision
    split
    · rename_i hm
      rcases h with h | h
      · exact absurd hm h
      · exact arbitrate_none (.inl h)
    · rfl
  · have he : arbiterDecision s = arbitrate allSlots s := if_pos hm
    have h := (arbitrate_spec allSlots (by decide) s hb).1 i (by simp) hi fun j _ => hlow j
    rw [he, h]
    clear h he
    generalize hu : ({ s with slots := tab8 fun j => (if j ∈ allSlots ∧ j < i
        ∧ (s.slot j).state = .pending then skippedSlot (s.slot j) else s.slot j) } : State) = u
    have hslot : ∀ j, u.slot j = if j < i ∧ (s.slot j).state = .pending then skippedSlot (s.slot j)
        else s.slot j := by
      intro j
      rw [← hu]
      refine (look_tab8 _ j).trans ?_
      by_cases h : j < i ∧ (s.slot j).state = .pending
      · rw [if_pos h, if_pos ⟨mem_allSlots j, h⟩]
      · rw [if_neg h, if_neg fun g => h g.2]
    have hui : u.slot i = s.slot i := by rw [hslot, if_neg fun h => lt_irrefl _ h.1]
    have hreach : burstReaches u i = burstReaches s i := by
      funext k
      unfold burstReaches
      rw [hui, ← hu]
      rfl
    rw [startSlot_start (by rw [hreach]; exact hi.2), hui, hreach]
    have hframe : u = { s with slots := u.slots } := by rw [← hu]
    refine ⟨?_, rfl, ?_, fun j hj => ⟨fun hs => ?_, fun hs => ?_⟩, fun j hj => ?_, fun k => ?_, ?_⟩
    · rw [hframe]
      rfl
    · simp [State.slot]
    · have : look u.slots j = skippedSlot (s.slot j) := by
        show u.slot j = _
        rw [hslot, if_pos ⟨hj, hs.1⟩]
      simpa [State.slot, look_put_other _ _ _ _ hj.ne] using this
    · have : look u.slots j = s.slot j := by
        show u.slot j = _
        rw [hslot, if_neg fun h => hs ((skippable_iff (hlow j hj)).mpr h.2)]
      simpa [State.slot, look_put_other _ _ _ _ hj.ne] using this
    · have : look u.slots j = s.slot j := by
        show u.slot j = _
        rw [hslot, if_neg fun h => absurd hj (not_lt.mpr h.1.le)]
      simpa [State.slot, look_put_other _ _ _ _ hj.ne'] using this
    · rw [hframe]
      simp only [look_tab16]
      rfl
    · rw [← hu]
  · have he : arbiterDecision s = arbitrate allSlots s := if_pos hm
    have h := (arbitrate_spec allSlots (by decide) s hb).2 fun i _ => hn i
    rw [he, h]
    refine ⟨fun j => ⟨fun hs => ?_, fun hs => ?_⟩, rfl⟩
    · simp only [State.slot, look_tab8]
      exact if_pos ⟨by simp, hs.1⟩
    · simp only [State.slot, look_tab8]
      exact if_neg fun g => hs ((skippable_iff (hn j)).mpr g.2)

end Sys2Proof.Machine
end

