-- ==== Sys2Proof/Laws/Layouts.lean ====
section
/-! SUPPORT. The layouts of R171 against the operations that send them: `socketBytes` and `statusBytes` are
laid out as `socketLayout` and `statusLayout` say. -/

namespace Sys2Proof.Machine

/-! ### Parts -/

theorem laid_append {a b : List Part} {x y : List Byte} (h : Laid a x) (g : Laid b y) :
    Laid (a ++ b) (x ++ y) := by
  induction a generalizing x with
  | nil =>
      simp only [Laid] at h
      subst h
      simpa using g
  | cons p rest ih =>
      cases p with
      | sent b =>
          obtain ⟨z, rfl, hz⟩ := h
          exact ⟨z ++ y, by simp, ih hz⟩
      | unstated n =>
          obtain ⟨c, z, rfl, hc, hz⟩ := h
          exact ⟨c, z ++ y, by simp, hc, ih hz⟩

theorem laid_merge {b c x : List Byte} {rest : List Part} (h : Laid (.sent b :: .sent c :: rest) x) :
    Laid (.sent (b ++ c) :: rest) x := by
  obtain ⟨y, rfl, z, rfl, h⟩ := h
  exact ⟨z, by simp, h⟩

theorem laid_sent {b c x : List Byte} {rest : List Part} (hb : c = b) (h : Laid rest x) :
    Laid (.sent b :: rest) (c ++ x) := ⟨x, by rw [hb], h⟩

theorem laid_last {b c : List Byte} (hb : c = b) : Laid [.sent b] c := ⟨[], by simp [hb], rfl⟩

theorem laid_open {n : Nat} {b x : List Byte} {o : Option (List Byte)} {rest : List Part}
    (hl : b.length = n) (ho : ∀ y, o = some y → b = y) (h : Laid rest x) :
    Laid (openPart n o :: rest) (b ++ x) := by
  unfold openPart
  cases o with
  | none => exact ⟨b, x, rfl, hl, h⟩
  | some y => exact ⟨x, by rw [ho y rfl], h⟩

theorem laid_openLast {n : Nat} {b : List Byte} {o : Option (List Byte)} (hl : b.length = n)
    (ho : ∀ y, o = some y → b = y) : Laid [openPart n o] b := by
  have := laid_open (rest := []) (x := []) hl ho rfl
  rwa [List.append_nil] at this

theorem zero_sent {α : Type} (f : α → List Byte) (n : Nat) (o : Option α) :
    zeroPart n (o.map f) = .sent (orZero f n o) := by
  cases o <;> rfl

theorem code_sent {α : Type} (f : α → Nat) (o : Option α) : codePart (o.map f) = .sent (putNamed f o) := by
  cases o <;> rfl

theorem sample_sent (o : Option Sample) : samplePart o = .sent (putSample o) := by cases o <;> rfl

theorem bit_flag (b : Bool) : put1 (bit 0 b) = putFlag b := by cases b <;> rfl

theorem msTo_left (s : State) (d : Nat) : s.msTo d = msLeft s d := by
  unfold State.msTo msLeft ceilDiv
  congr 1

/-- A number sent from an option: it is the number where there is one. -/
theorem orFree_open {o : Option Nat} (f : Nat → List Byte) (site : AbsentSite) (s : State) (y : List Byte)
    (h : o.map f = some y) : f (orFree site s o) = y := by
  cases o with
  | none => simp at h
  | some n => simpa [orFree] using h

theorem table_flat8 (v : Vector Nat 8) (f : Nat → List Byte) :
    v.toList.flatMap f = (List.ofFn fun i : Fin 8 => f (look v i)).flatten := by
  have : v.toList = List.ofFn fun i : Fin 8 => look v i := by
    refine List.ext_getElem (by simp) fun i h1 h2 => ?_
    rw [List.getElem_ofFn]
    rfl
  rw [this, List.flatMap_def, List.map_ofFn]
  rfl

/-! ### GetSocket -/

theorem putRail_laid (k : Socket) (r : RailKind) (s : State) : Laid (railParts k r s) (putRail k r s) := by
  have hp : (((look s.scan.current k).get r).map fun y =>
      s.effSetpoint k r * (y.value.getD 0).toNat / 10000) = s.railPower k r := by
    unfold State.railPower State.currentOf
    cases (look s.scan.current k).get r <;> rfl
  unfold railParts putRail
  simp only [hp, List.append_assoc]
  refine laid_sent rfl (laid_open rfl ?_ ?_)
  · intro y
    cases (s.rail k r).deadline <;> simp [orFree, msTo_left]
  · rw [zero_sent]
    refine laid_merge (laid_sent rfl (laid_merge (laid_sent rfl (laid_sent ?_ (laid_last rfl)))))
    cases (look s.supply.measured k).get r <;> cases s.railPower k r <;> rfl

theorem putRun_laid (s : State) (o : Option Run) : Laid (runParts s o) (orZero (putRun s) 6 o) := by
  cases o with
  | none => exact ⟨[], rfl, rfl⟩
  | some x =>
      simp only [runParts, orZero, putRun]
      refine laid_sent rfl (laid_openLast rfl ?_)
      intro y
      cases x.cond <;> simp [dwellDeadline, orFree, msTo_left]

theorem window_sent (s : State) (o : Option Window) :
    windowPart s o = .sent (orZero (putWindow s) 15 o) := by
  cases o with
  | none => rfl
  | some w =>
      simp only [windowPart, orZero, putWindow]
      cases h : w.waiting <;> simp [msTo_left, putNamed]

theorem presence_seven (a b c d e f g : Bool) :
    bit 0 a + bit 1 b + bit 2 c + bit 3 d + bit 4 e + bit 5 f + bit 6 g
      = presenceByte [a, b, c, d, e, f, g] := by
  revert a b c d e f g
  decide

theorem presence_three (a b c : Bool) : bit 0 a + bit 1 b + bit 2 c = presenceByte [a, b, c] := by
  revert a b c
  decide

theorem laid_band {o : Option TickResult} {s : State} {x : List Byte} {rest : List Part}
    (h : Laid rest x) :
    Laid (bandPart o :: rest) (put1 (orFree .bandIndex s (bandOf o)) ++ x) := by
  cases o with
  | none => exact ⟨_, x, rfl, rfl, h⟩
  | some y => cases y <;> first | exact ⟨x, rfl, h⟩ | exact ⟨_, x, rfl, rfl, h⟩

theorem socketHead_laid (k : Socket) (s : State) :
    Laid (socketHeadParts k s) (socketHead k s ++ (putParams (s.sock k).params
      ++ putSample (look s.scan.temp k) ++ putSample (s.currentOf k .core)
      ++ putSample (s.currentOf k .aux))) := by
  unfold socketHeadParts socketHead
  dsimp only
  simp only [zero_sent, code_sent, sample_sent, presence_seven, ← table_flat8, List.append_assoc]
  refine laid_merge <| laid_sent rfl <| laid_sent rfl <| laid_sent rfl <| laid_sent rfl <|
    laid_sent rfl <| laid_sent rfl ?_
  refine laid_merge <| laid_sent rfl <| laid_sent rfl <| laid_sent rfl <| laid_sent rfl <|
    laid_sent rfl <| laid_sent rfl <| laid_sent rfl <| laid_sent rfl ?_
  refine laid_merge <| laid_sent rfl <| laid_merge <| laid_sent rfl <| laid_sent rfl <|
    laid_sent rfl <| laid_sent rfl <| laid_band ?_
  refine laid_sent ?_ <| laid_sent rfl <| laid_sent rfl <| laid_last rfl
  unfold putParams
  simp only [List.append_assoc]
  cases (s.sock k).params.latchEnable <;> cases (s.sock k).params.reportEnable <;> rfl

theorem socketTail_laid (k : Socket) (s : State) : Laid (socketTailParts k s) (socketHeat k s) := by
  unfold socketTailParts socketHeat
  dsimp only
  simp only [zero_sent, code_sent, window_sent, bit_flag, List.append_assoc]
  exact laid_sent rfl <| laid_merge <| laid_sent rfl <| laid_merge <| laid_sent rfl <| laid_merge <|
    laid_sent rfl <| laid_merge <| laid_sent rfl <| laid_merge <| laid_sent rfl <| laid_merge <|
    laid_sent rfl <| laid_sent rfl <| laid_sent rfl <| laid_sent rfl <| laid_sent rfl <| laid_last rfl

/-- The bytes of GetSocket are R171's layout. -/
theorem socketBytes_laid (k : Socket) (s : State) : Laid (socketLayout k s) (socketBytes k s) := by
  have h : socketBytes k s = (socketHead k s ++ (putParams (s.sock k).params
      ++ putSample (look s.scan.temp k) ++ putSample (s.currentOf k .core)
      ++ putSample (s.currentOf k .aux))) ++ putRail k .core s ++ putRail k .aux s
      ++ orZero (putRun s) 6 (s.run k) ++ socketHeat k s := by
    unfold socketBytes socketRails
    simp only [List.append_assoc]
  rw [h]
  exact laid_append (laid_append (laid_append (laid_append (socketHead_laid k s) (putRail_laid k .core s))
    (putRail_laid k .aux s)) (putRun_laid s _)) (socketTail_laid k s)

/-! ### GetBoardStatus -/

theorem laid_serial {o : Option (List Byte)} {c x : List Byte} {rest : List Part}
    (hc : c = putSerial (o.getD [])) (h : Laid rest x) : Laid (serialPart (o.getD []) :: rest) (c ++ x) :=
  laid_sent (by rw [hc, putSerial, List.append_assoc]) h

theorem statusBoard_laid (s : State) : Laid (statusBoardParts s) (statusBoard s) := by
  unfold statusBoardParts statusBoard
  simp only [code_sent, presence_three, List.append_assoc]
  refine laid_sent rfl <| laid_sent rfl <| laid_merge <| laid_sent ?_ <| laid_merge <| laid_sent rfl <|
    laid_sent rfl <| laid_sent rfl <| laid_sent rfl <| laid_open rfl ?_ <| laid_serial ?_ <|
    laid_open rfl ?_ <| laid_serial ?_ <| laid_openLast rfl ?_
  · cases s.ovenOk <;> rfl
  · intro y
    cases s.board.fields <;> simp [orFree]
  · cases s.board.fields <;> rfl
  · intro y
    cases s.board.fields <;> simp [orFree]
  · cases s.board.last <;> rfl
  · intro y
    cases s.board.last <;> simp [orFree]

theorem statusSupply_laid (s : State) : Laid (statusSupplyParts s) (statusSupply s) := by
  unfold statusSupplyParts statusSupply
  dsimp only
  simp only [sample_sent, bit_flag, ← waitingList_railsIn, ← risingCount_railsIn, List.append_assoc]
  refine laid_sent rfl <| laid_merge <| laid_sent rfl <| laid_merge <| laid_sent rfl <| laid_sent rfl <|
    laid_merge <| laid_sent rfl <| laid_merge <| laid_sent rfl <| laid_sent rfl <| laid_merge <|
    laid_sent rfl <| laid_sent rfl <| laid_open ?_ ?_ <| laid_merge <| laid_sent rfl <| laid_merge <|
    laid_sent rfl <| laid_last rfl
  · cases s.supply.allowance <;> rfl
  · intro y
    cases s.supply.allowance <;> simp

theorem putTimer_laid (x : TimerId) (s : State) : Laid (timerParts x s) (putTimer x s) := by
  unfold timerParts putTimer
  simp only [List.append_assoc]
  refine laid_merge (laid_sent rfl (laid_sent rfl (laid_openLast rfl ?_)))
  intro y
  cases timerOf x s with
  | running d => simp [timerLeft, msLeft, ceilDiv]
  | frozen r => simp [timerLeft, ceilDiv]
  | stopped => simp

theorem higherOf_max (a b : Nat) : higherOf a b = max a b := by
  unfold higherOf
  split <;> omega

theorem statusRun_laid (s : State) : Laid (statusRunParts s) (statusRun s) := by
  have h : statusRun s = (putNamed (fun (b : Burst) => b.slot.val) s.bus
      ++ (put2 (orFree .busMask s (s.bus.map (·.mask.toNat)))
        ++ put4 (orFree .busTime s (s.bus.map (·.endAt - s.now)))))
      ++ putTimer .timer0 s ++ putTimer .timer1 s
      ++ (put1 s.log.length ++ (put4 s.runClock ++ (put1 (if s.clockRunning then 0 else 1)
        ++ put2 (orFree .nextTick s s.timeToTick)))) := by
    unfold statusRun
    simp only [List.append_assoc]
  rw [h]
  unfold statusRunParts
  refine laid_append (laid_append (laid_append ?_ (putTimer_laid .timer0 s)) (putTimer_laid .timer1 s)) ?_
  · rw [code_sent]
    refine laid_sent rfl <| laid_open rfl ?_ <| laid_openLast rfl ?_
    · intro y
      cases s.bus <;> simp [orFree]
    · intro y
      cases s.bus <;> simp [orFree]
  · rw [List.append_assoc]
    refine laid_merge <| laid_sent rfl <| laid_merge <| laid_sent rfl <| laid_sent ?_ <| laid_openLast rfl ?_
    · unfold State.clockRunning
      cases s.nextTick <;> rfl
    · intro y
      unfold State.timeToTick
      cases s.nextTick <;> simp [orFree, msTo_left, higherOf_max]

/-- The bytes of GetBoardStatus are R171's layout. -/
theorem statusBytes_laid (s : State) : Laid (statusLayout s) (statusBytes s) :=
  laid_append (laid_append (statusBoard_laid s) (statusSupply_laid s)) (statusRun_laid s)

end Sys2Proof.Machine
end

