-- ==== Sys2Proof/Laws/Steps.lean ====
section
/-! SUPPORT. What a step can be, the checks of socket requests, and what the remaining shared operations
do: timers, heat, log entries, sums over the sockets, the search for the curtail factor. -/

namespace Sys2Proof.Machine

/-! ### A step -/

theorem dueEvents_choice (draws : Nat) (e : Instr) (rest : List Instr) :
    chooseEvent draws e rest ∈ e :: rest := by
  unfold chooseEvent
  split
  · simp
  · rename_i x xs
    have h : Config.pick draws % ((x :: xs).length + 1) < (e :: x :: xs).length := by
      simpa using Nat.mod_lt (Config.pick draws) (Nat.succ_pos (x :: xs).length)
    rw [List.getD_eq_getElem _ _ h]
    exact List.getElem_mem h

/-- A step is a waiting command, an event of the part's own, a microsecond, or nothing. -/
theorem step_cases {s t : State} (h : StepsTo s t) :
    (∃ c rest, s.pending = c :: rest ∧ exec c { s with pending := rest } = .next t)
      ∨ (s.pending = [] ∧ s.resetting = none ∧ ∃ e ∈ dueEvents s, exec e s = .next t
          ∨ exec e { s with draws := s.draws + 1 } = .next t)
      ∨ (s.pending = [] ∧ s.resetting = none ∧ t = { s with now := s.now + 1 })
      ∨ (s.pending = [] ∧ t = s) := by
  unfold StepsTo step at h
  split at h
  · rename_i c rest hp
    exact .inl ⟨c, rest, hp, h⟩
  · rename_i hp
    simp only [stepAlone] at h
    split at h
    · exact .inr (.inr (.inr ⟨hp, by injection h with h; exact h.symm⟩))
    · rename_i hr
      split at h
      · injection h with h
        unfold passTime at h
        split at h
        · exact .inr (.inr (.inr ⟨hp, h.symm⟩))
        · exact .inr (.inr (.inl ⟨hp, hr, h.symm⟩))
      · rename_i e rest hd
        refine .inr (.inl ⟨hp, hr, chooseEvent s.draws e rest, ?_, ?_⟩)
        · rw [hd]
          exact dueEvents_choice _ _ _
        · unfold drawnFor at h
          split at h
          · exact .inl h
          · exact .inr h

/-! ### Socket requests (R12) -/

theorem socketRequest_range {n : Byte} (h : 15 < n.toNat) (a : Bool) (f : Socket → State → State)
    (s : State) : socketRequest n a f s = s.refuse .range := by
  unfold socketRequest
  rw [socketOf_none h]

theorem socketRequest_busy {n : Byte} {k : Socket} (h : k.val = n.toNat) (a : Bool)
    (f : Socket → State → State) {s : State} (hb : s.board.attach = .attaching) :
    socketRequest n a f s = s.refuse .busy := by
  unfold socketRequest
  rw [socketOf_val h]
  exact if_pos hb

theorem socketRequest_notAttached {n : Byte} {k : Socket} (h : k.val = n.toNat) (a : Bool)
    (f : Socket → State → State) {s : State} (hb : s.board.attach ≠ .attaching)
    (ha : s.board.attach ≠ .attached) : socketRequest n a f s = s.refuse .notAttached := by
  unfold socketRequest
  rw [socketOf_val h]
  exact (if_neg hb).trans (if_pos ha)

/-- The checks of an ATTACHED board: an empty socket, the mode, then the request's own. -/
theorem socketRequest_attached {n : Byte} {k : Socket} (h : k.val = n.toNat) (a : Bool)
    (f : Socket → State → State) {s : State} (ha : s.board.attach = .attached) :
    socketRequest n a f s =
      if (s.sock k).state = .empty then s.refuse .emptySocket
      else if a = false then s.refuse .wrongMode
      else f k s := by
  unfold socketRequest
  rw [socketOf_val h]
  have hb : s.board.attach ≠ .attaching := by rw [ha]; exact nofun
  exact (if_neg hb).trans (if_neg fun g => g ha)

/-! ### Heat, timers, the log -/

theorem zeroHeat_eq (k : Socket) (s : State) :
    zeroHeat k s = { s with
      heat := put s.heat k { look s.heat k with demand := 0 }
      supply := { s.supply with applied := put s.supply.applied k 0 }
      active := put s.active k 0
      heaterOn := put s.heaterOn k false
      heaterOff := put s.heaterOff k none } := rfl

theorem setTimer_eq (x : TimerId) (v : Timer) (s : State) :
    setTimer x v s = { s with timers := match x with
      | .timer0 => { s.timers with timer0 := v }
      | .timer1 => { s.timers with timer1 := v } } := by
  cases x <;> rfl

@[simp] theorem timerOf_setTimer (x : TimerId) (v : Timer) (s : State) :
    timerOf x (setTimer x v s) = v := by
  cases x <;> rfl

@[simp] theorem intervalOf_setTimer (x y : TimerId) (v : Timer) (s : State) :
    intervalOf y (setTimer x v s) = intervalOf y s := by
  cases x <;> cases y <;> rfl

theorem timerOf_loadTimer (x : TimerId) (s : State) :
    timerOf x (loadTimer x s)
      = if 0 < intervalOf x s then .running (s.now + 1000 * intervalOf x s) else .stopped := by
  unfold loadTimer
  rw [timerOf_setTimer]
  rfl

theorem bumpNewest_append (older : List LogEntry) (x : LogEntry) :
    bumpNewest (older ++ [x]) = older ++ [{ x with repeats := x.repeats + 1 }] := by
  induction older with
  | nil => rfl
  | cons y ys ih =>
      cases ys with
      | nil => rfl
      | cons z zs =>
          simp only [List.cons_append] at ih ⊢
          rw [bumpNewest, ih]

/-! ### Sums over the sockets -/

theorem sumSockets_eq (f : Socket → Nat) : sumSockets f = (allSockets.map f).sum := by
  simp [sumSockets, allSockets]
  omega

theorem sumSockets_congr {f g : Socket → Nat} (h : ∀ k, f k = g k) : sumSockets f = sumSockets g :=
  congrArg sumSockets (funext h)

theorem sumSockets_le {f g : Socket → Nat} (h : ∀ k, f k ≤ g k) : sumSockets f ≤ sumSockets g := by
  rw [sumSockets_eq, sumSockets_eq]
  exact List.sum_le_sum fun k _ => h k

theorem sumSockets_zero : sumSockets (fun _ => 0) = 0 := by decide

/-! ### The curtail factor (R93) -/

theorem appliedDraw_zero (s : State) : appliedDraw s 0 = 0 := by
  unfold appliedDraw drawAt dutyAt
  simp [sumSockets_zero]

theorem appliedDraw_mono (s : State) {f g : Nat} (h : f ≤ g) : appliedDraw s f ≤ appliedDraw s g :=
  sumSockets_le fun _ => Nat.div_le_div_right (Nat.mul_le_mul_left _
    (Nat.div_le_div_right (Nat.mul_le_mul_left _ h)))

/-- The search finds the largest factor up to its start that keeps the draws within the allowance. -/
theorem largestFactor_spec (s : State) (allowance first : Nat) :
    largestFactor s allowance first ≤ first
      ∧ appliedDraw s (largestFactor s allowance first) ≤ allowance
      ∧ ∀ f, largestFactor s allowance first < f → f ≤ first → allowance < appliedDraw s f := by
  induction first with
  | zero =>
      refine ⟨le_refl _, ?_, ?_⟩
      · unfold largestFactor
        rw [appliedDraw_zero]
        exact Nat.zero_le _
      · intro f h1 h2
        unfold largestFactor at h1
        omega
  | succ n ih =>
      unfold largestFactor
      split
      · rename_i h
        exact ⟨le_refl _, h, fun f h1 h2 => by omega⟩
      · rename_i h
        refine ⟨by omega, ih.2.1, fun f h1 h2 => ?_⟩
        by_cases hf : f = n + 1
        · subst hf
          omega
        · exact ih.2.2 f h1 (by omega)

end Sys2Proof.Machine
end

