-- ==== Sys2Proof/WellFormed.lean ====
section
/-! DEFINITION. The checks a command meets beyond its types: what the link can carry and what an event's
name asserts. A command that fails its check still answers a next state (log 13, 19). -/

namespace Sys2Proof

/-- A direction is present for ACTIVITY and for no other kind (R132). -/
def FailMsg.wellFormed (f : FailMsg) : Bool :=
  f.direction.isSome == (f.kind == .activity)

/-- The check of each command. SetProfile's payload of 2 + 6 × count bytes is at most 200 (R165, R167),
so that a frame carries at most 33 steps. A read's success or failure is the outcome that R26 gives its
bytes; NO_ANSWER has a row of its own. -/
def Instr.wellFormed : Instr → Bool
  | .setProfile _ steps => decide (steps.length ≤ 33)
  | .attachReadSuccess image _ _ =>
      match Machine.readImage image with
      | .good _ => true
      | .bad _ => false
  | .attachReadFailure image =>
      match Machine.readImage image with
      | .good _ => false
      | .bad r => r != .noAnswer
  | .failTaken f => f.wellFormed
  | .identify | .getBoardStatus | .attach | .setBoardField _ _ _ | .getBoardField _ _
  | .getProfile _ | .setPolicy _ _ _ _ | .getPolicy | .setSocketParams _ _ | .getSocket _
  | .setSlot _ _ | .getSlot _ | .sendSlot _ | .abortSlot _ | .setTimers _ _ | .start | .pause _
  | .resume _ | .shutdown | .quench _ | .clear | .startSocket _ | .stopSocket _ | .retrySocket _
  | .clearSocket _ | .readFails _ | .setAlarmEnables _ _ | .readAlarms _ | .lineByte _
  | .gapTimerExpiry | .replyEnd | .powerOnReset | .resetNAsserted | .clockLoss | .resetEnd _
  | .brdPresentAsserted | .brdPresentDeasserted | .attachNoAnswer | .attachTimeout
  | .roundBoundary | .channelArrival _ | .riseEnd _ _ | .fallEnd _ _ | .dwellEnd _
  | .rfltNLevel _ _ | .upProfileComplete _ | .downProfileComplete _ | .stopOrder _
  | .carrierPeriodStart | .dispatchTimerExpiry _ | .burstEnd _ | .monitorEdge _ _
  | .windowClose _ | .alarmLevelTaken _ _ | .tick | .holdExpiry _ | .ovenOkLevel _
  | .heaterOnTimeEnd _ => true

end Sys2Proof
end

