-- ==== Sys2Proof/Tests/Slice0.lean ====
section
/-! SUPPORT. The model's own tests: terms that a check refuses, worked cases of the spec, and for every
statement with hypotheses concrete states and operands that meet them, clause by clause. -/

namespace Sys2Proof.Machine

set_option Elab.async false

/-! ### States to test on -/

/-- A sound board with sockets 0 to 3 fitted. -/
def testBoard : BoardRecord where
  layoutVersion := 1
  typeCode := 0x0102#16
  serial := [0x41#8, 0x31#8]
  population := 0x000F#16
  heaterRating := tab16 fun _ => 600
  calibration := tab16 fun _ => 0
  absLimit := 2400
  rail := ⟨⟨700, 900, 12000, 10000, 900, 5, 10⟩, ⟨1500, 2000, 2000, 800, 150, 2, 3⟩⟩
  vectorPeriod := 1000
  latency := 2
  glitchWidth := 2
  alarmHigh := 0xFFFF#16
  bulkLimit := 12000
  bulkMinimum := 44000

/-- The board in an attach state; its fields are full in every state but DETACHED, PRESENT and FAILED. -/
def onBoard (a : AttachState) : State :=
  { State.reset with
    board :=
      { State.reset.board with
        fields := match a with
          | .attached | .attaching => some testBoard
          | .detached | .present | .failed => none
        attach := a
        last := some ⟨testBoard.serial, testBoard.population⟩ }
    sockets := tab16 fun k =>
      { SocketRecord.reset with
        state := if inSet testBoard.population k then .idle else .empty
        params := { HostParams.reset with setpoint := ⟨850, 1800⟩ } } }

/-- The attached board in a mode. -/
def inMode (m : Mode) : State := { onBoard .attached with mode := m }

/-- Socket 0 changed, in a mode. -/
def withSock (m : Mode) (f : SocketRecord → SocketRecord) : State := (inMode m).modSock 0 f

/-- Socket 0 in a state, in a mode. -/
def withState (m : Mode) (x : SocketState) : State := withSock m fun r => { r with state := x }

/-- Socket 0 held for a reason, in a mode. -/
def heldFor (m : Mode) (h : HoldReason) (used : Nat) : State := withSock m fun r =>
  { r with
    state := .held, holdReason := some h, holdKind := some .activity, holdTime := some 1
    retries := used }

/-- Socket 0's CORE rail in a state, its AUX rail in another, with a run, in RUN. -/
def withRails (x : SocketState) (core aux : RailState) (run : Option Run) : State :=
  { (withState .run x).setRun 0 run with
    rails := put (inMode .run).rails 0 ⟨⟨core, some 0, 170⟩, ⟨aux, some 0, 360⟩⟩ }

/-- A round whose next code is that of a channel. -/
def atChannel (c : Channel) (s : State) : State :=
  { s with scan := { s.scan with round := some ⟨42, c, 0⟩ } }

/-- Stimulus slot 0 in a state, in a mode. -/
def withSlot (m : Mode) (f : Slot → Slot) : State := (inMode m).modSlot 0 f

/-- In a reset. -/
def inReset : State := { State.reset with resetting := some ⟨false, true, false⟩ }

/-- The link has received all bytes of a frame but the last. -/
def received (f : List Byte) : State :=
  { State.reset with link := { State.reset.link with rx := .receiving, buffer := f.dropLast } }

/-- The last byte of a frame. -/
def lastByte (f : List Byte) : Byte := f.getLastD 0#8

/-- The outcome is a next state that passes a check. -/
def gives (o : Out) (f : State → Bool) : Bool :=
  match o with
  | .next s => f s
  | .fault _ | .refused _ => false

/-! ### Well-formedness: one term that each check refuses, one that it lets pass -/

theorem test_setProfile_carries_at_most_33_steps :
    (Instr.setProfile 0#8 (List.replicate 34 ⟨0#8, 0#8, 0#16, 0#16⟩)).wellFormed = false
      ∧ (Instr.setProfile 0#8 (List.replicate 33 ⟨0#8, 0#8, 0#16, 0#16⟩)).wellFormed = true := by
  decide +kernel

theorem test_direction_goes_with_activity :
    (Instr.failTaken ⟨0, .overtemp, 0#16, some .low⟩).wellFormed = false
      ∧ (Instr.failTaken ⟨0, .activity, 0#16, none⟩).wellFormed = false
      ∧ (Instr.failTaken ⟨0, .activity, 0#16, some .low⟩).wellFormed = true := by
  decide +kernel

theorem test_image_of_the_board : readImage (imageOf testBoard) = .good testBoard := by
  have hl : (imageOf testBoard).length = 99 := by decide +kernel
  have hn : byteAt (imageOf testBoard) 1 = 97 := by decide +kernel
  have hv : byteAt (imageOf testBoard) 0 = 1 := by decide +kernel
  have hc := image_crc testBoard 97 (by decide +kernel)
  have hp : parseRecord (imageOf testBoard) = testBoard := by decide +kernel
  have hf : fieldsInRange testBoard = true := by decide +kernel
  simp [readImage, hl, hn, hv, hc, hp, hf]

theorem wellFormed_of_good (m : List Byte) (x : BoardRecord) (h : readImage m = .good x) :
    (Instr.attachReadFailure m).wellFormed = false
      ∧ ∀ mon alm, (Instr.attachReadSuccess m mon alm).wellFormed = true := by
  simp [Instr.wellFormed, h]

theorem test_read_outcomes_name_their_image :
    (Instr.attachReadSuccess [0x02#8, 0x60#8] 0#16 0#16).wellFormed = false
      ∧ (Instr.attachReadFailure (imageOf testBoard)).wellFormed = false
      ∧ (Instr.attachReadFailure [1#8]).wellFormed = false
      ∧ (Instr.attachReadFailure [2#8, 0#8]).wellFormed = true
      ∧ (Instr.attachReadSuccess (imageOf testBoard) 0#16 0#16).wellFormed = true := by
  have h := wellFormed_of_good _ _ test_image_of_the_board
  exact ⟨by decide +kernel, h.1, by decide +kernel, by decide +kernel, h.2 _ _⟩

/-! ### Worked cases of the spec -/

theorem test_worked_conversions :
    tempSample 2731 0 42 = ⟨some 1920, .valid, 2731, 42⟩
      ∧ tempSample 2731 (-24) 42 = ⟨some 1896, .valid, 2731, 42⟩
      ∧ tempSample 4000 100 42 = ⟨some 3200, .valid, 4000, 42⟩
      ∧ tempSample 16 (-128) 42 = ⟨some (-640), .valid, 16, 42⟩
      ∧ tempSample 9 0 42 = ⟨none, .short, 9, 42⟩
      ∧ tempSample 4088 0 42 = ⟨none, .openCircuit, 4088, 42⟩
      ∧ currentValue 3072 12000 = 9000 ∧ currentValue 1229 2000 = 600 ∧ bulkValue 3000 = 48000 := by
  decide +kernel

theorem test_worked_heater_stages :
    controlStage 76800 40 16 (errorStage 2000 1968) = (77312, 382)
      ∧ controlStage 76800 40 16 (errorStage 2000 1700) = (76800, 1000)
      ∧ errorStage 2000 (-640) = 1600 ∧ proportional 255 1600 = 25500
      ∧ controlStage 25600 255 16 (errorStage 800 2400) = (25600, 0)
      ∧ controlStage 2560 40 0 (errorStage 2000 2003) = (2560, 3)
      ∧ controlStage 300 0 16 (errorStage 2000 2030) = (0, 0)
      ∧ controlStage 12800 40 16 (errorStage 2000 2040) = (12800, 0) := by
  decide +kernel

theorem test_worked_warming_arrival :
    heatStages ⟨2000, 8, 40, 16, 80, 40⟩ 1955 ⟨some 1968, 160, 0, 0, 25⟩
      = (⟨some 1976, 496, 0, 0, 53⟩, false) := by
  decide +kernel

theorem test_worked_runaway_arrival :
    heatStages ⟨2000, 8, 40, 16, 80, 40⟩ 2196 ⟨some 2000, 25600, 0, 39, 0⟩
      = (⟨some 2000, 25600, 0, 0, 0⟩, true) := by
  decide +kernel

/-- Sockets 0 to 3 STRESSING with these demands; socket 0's CORE rail counts `rails` at the next round
end. -/
def sharing (rating bulk rails : Nat) (demands : Socket → Nat) : State :=
  let x : BoardRecord :=
    { testBoard with
      heaterRating := tab16 fun _ => rating
      bulkLimit := bulk
      rail := { testBoard.rail with core := { testBoard.rail.core with maxPower := rails } } }
  { inMode .run with
    board := { (inMode .run).board with fields := some x }
    sockets := tab16 fun k => { (inMode .run).sock k with state := .stressing }
    scan := { (inMode .run).scan with temp := tab16 fun _ => some ⟨some 1990, .valid, 0, 1⟩ }
    heat := tab16 fun k => { HeatControl.reset with demand := demands k }
    rails := put (inMode .run).rails 0 ⟨⟨.rising, some 0, 170⟩, .off⟩ }

theorem test_worked_curtailing_four_heaters :
    let t := allot (sharing 600 12000 10500 fun k =>
      if k = 0 then 382 else if k = 1 then 900 else if k = 2 then 1000 else if k = 3 then 500 else 0)
    t.supply.railAllotment = 10500 ∧ t.supply.allowance = some 1500 ∧ t.supply.totalDraw = 1669
      ∧ t.supply.curtail = 920 ∧ look t.supply.applied 0 = 343 ∧ look t.supply.applied 1 = 808
      ∧ look t.supply.applied 2 = 898 ∧ look t.supply.applied 3 = 449
      ∧ look t.supply.curtailed 3 = true := by
  decide +kernel

theorem test_worked_rounding_carried_back :
    let t := allot (sharing 603 20000 10385 fun _ => 998)
    t.supply.totalDraw = 9616 ∧ t.supply.curtail = 1022 ∧ look t.supply.applied 15 = 996 := by
  decide +kernel

theorem test_worked_negative_allowance :
    let t := allot (sharing 600 3000 3120 fun _ => 500)
    t.supply.allowance = some (-120) ∧ t.supply.curtail = 0 ∧ look t.supply.applied 2 = 0
      ∧ look t.supply.curtailed 2 = true
      ∧ overloadCheck { t with supply := { t.supply with overload := 0 } } = (1, none) := by
  decide +kernel

/-- The board of the worked bring-up: bulk power limit 3000, inrush limit 2. -/
def bringUp : State :=
  { inMode .config with board :=
    { (inMode .config).board with
      fields := some { testBoard with bulkLimit := 3000 }
      host := { HostFields.reset with inrushLimit := 2 } } }

theorem test_worked_bring_up_starts_two_rails :
    gives (exec .start bringUp) (fun t => t.waitingList == [(2, .core), (3, .core)]
      && t.risingCount == 2 && t.supply.grantSum == 1800 && t.mode == .run
      && (t.rail 1 .core).deadline == some 5000 && (t.rail 1 .core).code == 170) = true := by
  decide +kernel

theorem test_worked_profiles_are_valid :
    (look resetProfiles 0 |> upValid) = true ∧ (look resetProfiles 1 |> upValid) = false
      ∧ (look resetProfiles 2 |> upValid) = true ∧ (look resetProfiles 3 |> downValid) = true
      ∧ downValid (look resetProfiles 0) = false := by
  decide +kernel

theorem test_worked_parameters_are_adjusted :
    gives (exec (.setSocketParams 0#8 ⟨2600#16, 8#16, 300#16, 16#16, 947#16, 1800#16, 0#8, 1#8, 0#8, 5#32⟩)
      (inMode .config)) (fun t => (t.sock 0).params.setpoint.core == 900
        && (t.sock 0).params.target == 2400 && (t.sock 0).params.kp == 255
        && (t.sock 0).stressTarget == 5) = true := by
  decide +kernel

theorem test_worked_overtemp_policy :
    gives (exec (.setPolicy 3#8 0#8 5#8 12#8) (inMode .config)) (fun t =>
      look t.policy 3 == ⟨.hold, 1, 12⟩ && t.answer == some ⟨.ok, [1#8, 1#8, 12#8]⟩) = true := by
  decide +kernel

theorem test_worked_band_indices :
    bandIndex 1968 2000 80 = 3 ∧ bandIndex 2127 2000 80 = 5 ∧ bandIndex (-640) 3200 80 = 0
      ∧ bandIndex 2085 2000 80 = 5 ∧ bandIndex 3200 2000 80 = 7 := by
  decide +kernel

/-- Socket 0 as socket 3 of the worked credit case, before the tick of 5007 s. -/
def nearTarget : State :=
  { withRails .stressing .on .on none with
    runClock := 5006
    nextTick := some 0
    board := { (inMode .run).board with host :=
      { HostFields.reset with weights := put HostFields.reset.weights 5 400 } }
    scan := { (inMode .run).scan with
      temp := put (inMode .run).scan.temp 0 (some ⟨some 2085, .valid, 0, 1⟩) }
    sockets := put (inMode .run).sockets 0
      { (inMode .run).sock 0 with
        state := .stressing, credit := 921456, stressTarget := 3600, lastPass := some 5005
        params := { HostParams.reset with target := 2080 } } }

theorem test_worked_credit_reaches_its_target :
    gives (exec .tick nearTarget) (fun t => t.runClock == 5007 && (t.sock 0).credit == 921856
      && look t.tickResult 0 == some (.qualified 5) && t.orders == [⟨0, .toDone⟩]) = true := by
  decide +kernel

theorem test_crc_of_the_usual_check_bytes :
    crc16 [0x31#8, 0x32#8, 0x33#8, 0x34#8, 0x35#8, 0x36#8, 0x37#8, 0x38#8, 0x39#8] = 0x29B1#16 := by
  decide +kernel

theorem test_identify_frame_is_answered :
    gives (exec (.lineByte (.byte (lastByte (frame 1 1 7 [])))) (received (frame 1 1 7 []))) (fun t =>
      t.link.rx == .replying
        && t.link.tx == frame 1 0x81 7 [0#8, 0x16#8, 0x24#8, 0#8, 1#8, 0#8]) = true := by
  decide +kernel

theorem test_worked_up_run_raises_its_second_rail :
    gives (exec (.riseEnd 0 .core) (withRails .starting .rising .off (some ⟨.up, 0, 1, .rising⟩))) (fun t =>
      (t.rail 0 .core).state == .on && t.rail 0 .aux == ⟨.rising, some 2000, 360⟩
        && t.run 0 == some ⟨.up, 0, 2, .rising⟩) = true := by
  decide +kernel

theorem test_worked_down_run_drops_its_second_rail :
    gives (exec (.fallEnd 0 .aux) (withRails .stopping .on .falling (some ⟨.down, 1, 1, .falling⟩))) (fun t =>
      (t.rail 0 .aux).state == .off && t.rail 0 .core == ⟨.falling, some 10000, 0⟩
        && t.run 0 == some ⟨.down, 1, 2, .falling⟩) = true := by
  decide +kernel

theorem test_worked_stop_order_abandons_the_rise :
    gives (exec (.stopOrder ⟨0, .toIdle⟩) (withRails .starting .on .rising (some ⟨.up, 0, 2, .rising⟩)))
      (fun t => (t.rail 0 .core).state == .on && (t.rail 0 .aux).state == .falling
        && t.run 0 == some ⟨.down, 1, 1, .falling⟩) = true := by
  decide +kernel

theorem test_two_wire_line_while_a_read_goes_on :
    (onBoard .attaching).twoWire = some ⟨0x50#7, 0⟩ ∧ (onBoard .attached).twoWire = none
      ∧ ({ onBoard .attaching with resetting := inReset.resetting } : State).twoWire = none := by
  decide +kernel

theorem test_time_to_tick_is_at_least_1 :
    ({ State.reset with now := 5, nextTick := some 5 } : State).timeToTick = some 1
      ∧ ({ State.reset with nextTick := some 1000000 } : State).timeToTick = some 1000
      ∧ State.reset.timeToTick = none := by
  decide +kernel

theorem test_store_output_is_masked_in_a_reset :
    ({ State.reset with storeCommand := some .stop } : State).storeOutput = some .stop
      ∧ ({ inReset with storeCommand := some .stop } : State).storeOutput = none := by
  decide +kernel

theorem test_arbiter_starts_the_lowest_pending_slot :
    let waits (mask : Half) (x : Slot) : Slot := { x with state := .pending, mask := mask }
    gives (exec (.burstEnd true)
      { (((withState .run .stressing).modSlot 1 (waits 2#16)).modSlot 2 (waits 1#16)).modSlot 5 (waits 1#16)
        with bus := some ⟨0, 1#16, 0⟩ }) (fun t =>
      (t.slot 1).state == .idle && (t.slot 1).skipped == 1 && (t.slot 2).state == .active
        && (t.slot 5).state == .pending && t.bus == some ⟨2, 1#16, 1⟩) = true := by
  decide +kernel

/-! ### Hypotheses that are met: one step, restart, the link -/

theorem test_meets_StepTakesTheFrontCommand :
    ({ State.reset with pending := [.tick, .tick] } : State).pending = .tick :: [.tick] := rfl

theorem test_meets_AnIdlePartTakesADueEventOrLetsTimePass :
    inReset.pending = [] ∧ inReset.resetting ≠ none
      ∧ State.reset.pending = [] ∧ State.reset.resetting = none ∧ dueEvents State.reset = []
      ∧ awaitsInput State.reset = false
      ∧ dueEvents (atChannel .bulk State.reset) = []
      ∧ awaitsInput (atChannel .bulk State.reset) = true
      ∧ dueEvents { State.reset with nextTick := some 0 } = [.tick]
      ∧ 1 < (dueEvents { State.reset with nextTick := some 0, nextCarrier := 0 }).length := by
  decide +kernel

theorem test_meets_ResetCausesHoldEveryOutputOff :
    inReset.resetting ≠ none ∧ Instr.tick ≠ .powerOnReset ∧ Instr.tick ≠ .resetNAsserted
      ∧ Instr.tick ≠ .clockLoss ∧ ∀ pins, Instr.tick ≠ .resetEnd pins :=
  ⟨nofun, nofun, nofun, nofun, nofun⟩

theorem test_meets_ResetEndGivesTheAfterResetState :
    State.reset.resetting = none ∧ inReset.resetting = some ⟨false, true, false⟩ := by
  decide +kernel

/-- A link that has received bytes. -/
def buffered (f : List Byte) : State :=
  { State.reset with link := { State.reset.link with rx := .receiving, buffer := f } }

theorem test_meets_TheLinkTakesBytesByReceiveState :
    State.reset.resetting = none ∧ State.reset.link.rx = .hunt
      ∧ (buffered [0xC3#8]).link.rx = .receiving
      ∧ ({ State.reset with link := { State.reset.link with rx := .replying } } : State).link.rx
          = .replying
      ∧ (3 ≤ ((buffered [0xC3#8, 1#8]).link.buffer ++ [201#8]).length
          ∧ 200 < byteAt ((buffered [0xC3#8, 1#8]).link.buffer ++ [201#8]) 2)
      ∧ ((buffered [0xC3#8]).link.buffer ++ [201#8]).length < 3
      ∧ (byteAt ((buffered [0xC3#8, 1#8]).link.buffer ++ [200#8]) 2 ≤ 200
          ∧ ((buffered [0xC3#8, 1#8]).link.buffer ++ [200#8]).length
            < byteAt ((buffered [0xC3#8, 1#8]).link.buffer ++ [200#8]) 2 + 7)
      ∧ (∃ f : List Byte, f = (buffered [0xC3#8, 1#8, 0#8, 1#8, 0#8, 0#8]).link.buffer ++ [0#8]
          ∧ byteAt f 2 = 0 ∧ f.length = 0 + 7
          ∧ (crc16 ((f.take (0 + 5)).drop 1)).toNat ≠ halfAt f (0 + 5)) := by
  refine ⟨rfl, rfl, rfl, rfl, ?_, ?_, ?_, _, rfl, ?_⟩ <;> decide +kernel

/-- One frame of each sort, with address, kind, tag and payload: another slot, the three broadcasts and
one that is ignored, an unknown kind, a wrong length, and requests of the shortest and longest sort. -/
def testFrames : List (Nat × Nat × Nat × List Byte) :=
  [(2, 0x01, 0, []), (0, 0x34, 1, []), (0, 0x31, 2, []), (0, 0x32, 3, []), (0, 0x30, 255, []),
   (1, 0x7F, 4, []), (1, 0x01, 5, [0#8]), (1, 0x01, 6, []), (1, 0x10, 7, [0#8, 1#8] ++ List.replicate 6 0#8)]

theorem test_meets_CompleteFramesAreDispatched :
    (∀ x ∈ testFrames, x.2.2.2.length ≤ 200 ∧ x.1 < 256 ∧ x.2.1 < 256 ∧ x.2.2.1 < 256
        ∧ (received (frame x.1 x.2.1 x.2.2.1 x.2.2.2)).resetting = none
        ∧ (received (frame x.1 x.2.1 x.2.2.1 x.2.2.2)).link.rx = .receiving
        ∧ (received (frame x.1 x.2.1 x.2.2.1 x.2.2.2)).link.buffer
            ++ [lastByte (frame x.1 x.2.1 x.2.2.1 x.2.2.2)] = frame x.1 x.2.1 x.2.2.1 x.2.2.2)
      ∧ State.reset.link.address = 1 ∧ requestKind 0x7F = none ∧ requestKind 0x01 = some .identify
      ∧ ([0#8] : List Byte).length ≠ payloadLength [0#8] .identify
      ∧ ([] : List Byte).length = payloadLength [] .identify
      ∧ requestKind 0x10 = some .setProfile
      ∧ ([0#8, 33#8] ++ List.replicate 198 0#8).length
          = payloadLength ([0#8, 33#8] ++ List.replicate 198 0#8) .setProfile := by
  decide +kernel

theorem test_meets_ReadRequestsOnlyAnswer :
    (inMode .config).resetting = none
      ∧ (∀ x, (inMode .config).board.fields = some x → x.serial.length ≤ 16)
      ∧ (∀ x, (inMode .config).board.last = some x → x.serial.length ≤ 16)
      ∧ (inMode .config).waitingList.length ≤ 16
      ∧ (∀ x, State.reset.board.fields = some x → x.serial.length ≤ 16)
      ∧ socketOf 0#8 = some 0 ∧ ((inMode .config).sock 0).state ≠ .empty
      ∧ socketOf 15#8 = some 15 ∧ ((inMode .config).sock 15).state = .empty ∧ socketOf 16#8 = none
      ∧ slotOf 7#8 = some 7 ∧ slotOf 8#8 = none
      ∧ fieldOf 0x16#8 7#8 = some (.weight 7) ∧ fieldOf 0x16#8 8#8 = none
      ∧ fieldOf 0x31#8 0#8 = some .layoutVersion ∧ fieldOf 0#8 0#8 = none
      ∧ ((inMode .config).board.fields.bind fun x => boardValue x .absLimit) = some 2400
      ∧ overrideValue { Overrides.none with bulkLimit := some 9 } .bulkLimit = some 9
      ∧ inForce (inMode .config) .bulkLimit = some 12000 := by
  refine ⟨rfl, ?_, ?_, ?_, ?_, ?_⟩
  · intro x h; cases h; decide
  · intro x h; cases h; decide
  · decide +kernel
  · exact nofun
  · decide +kernel

/-! ### Hypotheses that are met: the board table -/

theorem test_meets_AttachChecksAndStartsTheRead :
    (inMode .run).resetting = none ∧ (inMode .run).mode ≠ .config
      ∧ (∀ a ∈ [AttachState.attaching, .detached, .present, .failed, .attached],
          (onBoard a).resetting = none ∧ (onBoard a).mode = .config ∧ (onBoard a).board.attach = a) := by
  decide +kernel

/-- The serials of the shortest and the longest record, with a calibration at each end of its range. -/
def testRecords : List BoardRecord :=
  [{ testBoard with serial := [0x20#8], calibration := tab16 fun _ => -128 },
   { testBoard with serial := List.replicate 16 0x7E#8, calibration := tab16 fun _ => 127 }]

theorem test_meets_ABoardRecordReadsBack :
    ∀ x ∈ testRecords, x.layoutVersion = 1 ∧ 1 ≤ x.serial.length ∧ x.serial.length ≤ 16
      ∧ fieldsInRange x = true
      ∧ ∀ k, -128 ≤ look x.calibration k ∧ look x.calibration k ≤ 127 := by
  decide +kernel

/-- A board record with a CRC that is not its own. -/
def badImage (x : BoardRecord) : List Byte :=
  recordImage x ++ put2 (crc16 (recordImage x) + 1#16).toNat

theorem test_meets_AFailedReadEmptiesTheBoard_badCheck (x : BoardRecord) (n : Nat)
    (h : (recordImage x).length = n) :
    (crc16 ((badImage x).take n)).toNat ≠ halfAt (badImage x) n := by
  subst h
  unfold badImage
  rw [halfAt_put2, List.take_left]
  generalize crc16 (recordImage x) = c
  intro h
  have := c.isLt
  simp [BitVec.toNat_add] at h
  omega

/-- The board with a layout version. -/
def versioned (v : Nat) : BoardRecord := { testBoard with layoutVersion := v }

theorem test_meets_AFailedReadEmptiesTheBoard_goodCheck (v : Nat) :
    (crc16 ((imageOf (versioned v)).take 97)).toNat = halfAt (imageOf (versioned v)) 97 := by
  apply image_crc
  have h : (recordImage (versioned v)).length = (recordImage testBoard).length := by
    simp [recordImage, put1, versioned]
  rw [h]
  decide +kernel

theorem test_meets_AFailedReadEmptiesTheBoard_versions :
    byteAt (imageOf (versioned 2)) 0 ≠ 1 ∧ byteAt (imageOf (versioned 2)) 1 = 97
      ∧ byteAt (imageOf (versioned 1)) 0 = 1 ∧ byteAt (imageOf (versioned 1)) 1 = 97
      ∧ (recordImage (versioned 1)).length = 97 ∧ byteAt (badImage (versioned 1)) 1 = 97 := by
  decide +kernel

theorem test_meets_AFailedReadEmptiesTheBoard :
    (onBoard .attaching).board.attach = .attaching ∧ (onBoard .attached).board.attach ≠ .attaching
      ∧ readImage [2#8, 95#8] = .bad .badVersion ∧ ReadFailure.badVersion ≠ .noAnswer
      ∧ (2 ≤ [1#8, 95#8].length ∧ byteAt [1#8, 95#8] 1 < 96)
      ∧ (2 ≤ [2#8, 112#8].length ∧ 111 < byteAt [2#8, 112#8] 1)
      ∧ (∀ x ∈ testRecords, 96 ≤ byteAt (imageOf x) 1 ∧ byteAt (imageOf x) 1 ≤ 111
          ∧ byteAt (imageOf x) 1 + 2 ≤ (imageOf x).length) := by
  decide +kernel

theorem test_meets_BoardPresenceMovesTheAttachState :
    (onBoard .detached).resetting = none ∧ (onBoard .detached).board.attach = .detached
      ∧ (onBoard .attaching).board.attach ≠ .detached ∧ (onBoard .attaching).board.attach ≠ .attached
      ∧ runningMode (onBoard .attaching).mode = false
      ∧ (inMode .safe).board.attach = .attached ∧ runningMode (inMode .safe).mode = false
      ∧ (∀ m ∈ [Mode.run, .pause, .shutdown],
          (inMode m).board.attach = .attached ∧ runningMode (inMode m).mode = true) := by
  decide +kernel

theorem test_meets_HostFieldsAreWrittenInRange :
    (inMode .pause).mode ≠ .config
      ∧ ((onBoard .attaching).mode = .config ∧ (onBoard .attaching).board.attach = .attaching)
      ∧ ((onBoard .failed).mode = .config ∧ (onBoard .failed).board.attach ≠ .attaching)
      ∧ fieldOf 0#8 0#8 = none ∧ 0x1A ≤ (0x1A#8).toNat
      ∧ (∀ f ∈ hostFields, (BitVec.ofInt 32 f.low).toInt = f.low
          ∧ (BitVec.ofInt 32 f.high).toInt = f.high
          ∧ (BitVec.ofInt 32 (f.low - 1)).toInt < f.low
          ∧ f.high < (BitVec.ofInt 32 (f.high + 1)).toInt)
      ∧ weightOf 7#8 = some 7 ∧ (0xFFFFFFFF#32).toInt < 0 ∧ 65535 < (65536#32).toInt
      ∧ 0 ≤ (65535#32).toInt ∧ (65535#32).toInt ≤ 65535 := by
  decide +kernel

theorem test_meets_OverridesTighten :
    (onBoard .present).resetting = none ∧ (onBoard .present).mode = .config
      ∧ (onBoard .present).board.attach ≠ .attached ∧ (onBoard .present).board.attach ≠ .attaching
      ∧ 1 ≤ (8#8).toNat ∧ (8#8).toNat ≤ 8
      ∧ (inMode .config).board.attach = .attached ∧ (inMode .config).board.fields = some testBoard
      ∧ (0#32).toInt < 1 ∧ 1 ≤ (1#32).toInt ∧ (799#32).toInt < 800 ∧ 800 ≤ (800#32).toInt
      ∧ (0xFFFFFFFF#32).toInt < 0 ∧ 0 ≤ (0#32).toInt := by
  decide +kernel

theorem test_meets_AReadRecordIsInstalled :
    (onBoard .attaching).resetting = none ∧ (onBoard .attaching).board.attach = .attaching
      ∧ (onBoard .attaching).board.last = some ⟨testBoard.serial, testBoard.population⟩
      ∧ ({ onBoard .attaching with board := { (onBoard .attaching).board with last := none } } :
          State).board.last ≠ some ⟨testBoard.serial, testBoard.population⟩
      ∧ inSet testBoard.population 3 = true ∧ inSet testBoard.population 4 = false := by
  decide +kernel

/-! ### Hypotheses that are met: rails and profiles -/

theorem test_meets_SetProfileWritesAProfileWhole :
    (inMode .config).resetting = none ∧ (inMode .config).mode = .config ∧ (inMode .run).mode ≠ .config
      ∧ 3 < (4#8).toNat ∧ ((3 : ProfileId).val = (3#8).toNat)
      ∧ ([] : List RawStep).length = 0 ∧ 8 < (List.replicate 9 (⟨0#8, 0#8, 0#16, 0#16⟩ : RawStep)).length
      ∧ 1 ≤ (List.replicate 8 (⟨0#8, 0#8, 0#16, 0#16⟩ : RawStep)).length := by
  decide +kernel

theorem test_meets_SetProfileWritesAProfileWhole_steps :
    BadStep ⟨4#8, 0#8, 1#16, 1#16⟩ ∧ BadStep ⟨3#8, 2#8, 1#16, 1#16⟩ ∧ BadStep ⟨2#8, 0#8, 0#16, 1#16⟩
      ∧ BadStep ⟨3#8, 1#8, 2#16, 1#16⟩ ∧ ¬BadStep ⟨0#8, 1#8, 0#16, 0#16⟩
      ∧ ¬BadStep ⟨1#8, 0#8, 0#16, 0#16⟩ ∧ ¬BadStep ⟨2#8, 255#8, 1#16, 0#16⟩
      ∧ ¬BadStep ⟨3#8, 1#8, 2#16, 2#16⟩ := by
  simp [BadStep]

/-- Socket 0 waits at the head of the list behind this many RISING rails, with this grant sum. -/
def waiting (rising grants : Nat) : State :=
  { inMode .run with
    rails := tab16 fun k =>
      ⟨⟨if k.val = 0 then .waitGrant else if k.val ≤ rising then .rising else .off, none, 0⟩, .off⟩
    supply := { Supply.reset with grantSum := grants } }

theorem test_meets_GrantsFollowTheHeadOfTheList :
    (inMode .run).waitingList = []
      ∧ (waiting 4 0).waitingList = [(0, .core)] ∧ (waiting 4 0).board.host.inrushLimit ≤ (waiting 4 0).risingCount
      ∧ (waiting 3 11101).waitingList = [(0, .core)]
      ∧ (waiting 3 11101).bulkLimit < (waiting 3 11101).supply.railAllotment
          + (waiting 3 11101).supply.grantSum + (waiting 3 11101).maxPower .core
      ∧ (waiting 3 11100).waitingList = [(0, .core)]
      ∧ (waiting 3 11100).risingCount < (waiting 3 11100).board.host.inrushLimit
      ∧ (waiting 3 11100).supply.railAllotment + (waiting 3 11100).supply.grantSum
          + (waiting 3 11100).maxPower .core ≤ (waiting 3 11100).bulkLimit := by
  decide +kernel

/-- A profile with a VERIFY and a DROP after a DWELL. -/
def verifyingSteps : List Step :=
  [.raise .core, .raise .aux, .dwell 1, .verify .core 0 9000, .dwell 1, .drop .core]

/-- Profile 3 replaced by it. -/
def verifying (s : State) : State := { s with profiles := put s.profiles 3 verifyingSteps }

theorem test_meets_TimedRailEventsAdvanceTheRun_rising :
    let s := withRails .starting .on .rising (some ⟨.up, 0, 2, .rising⟩)
    let alone := withRails .starting .on .rising none
    s.resetting = none ∧ s.waitingList = [] ∧ (s.rail 0 .aux).state = .rising
      ∧ (s.rail 0 .core).state ≠ .rising ∧ (s.rail 0 .core).state ≠ .falling
      ∧ s.run 0 = some ⟨.up, 0, 2, .rising⟩
      ∧ (look s.profiles 0).drop (2 - 1) = [.raise .aux, .dwell 20]
      ∧ (alone.rail 0 .aux).state = .rising ∧ alone.run 0 = none
      ∧ (∀ p i d e, alone.run 0 ≠ some ⟨d, p, i, .dwell e⟩) := by
  refine ⟨rfl, by decide +kernel, by decide +kernel, by decide +kernel, by decide +kernel,
    by decide +kernel, by decide +kernel, by decide +kernel, by decide +kernel, ?_⟩
  intro p i d e h
  exact absurd h (by rw [show (withRails .starting .on .rising none).run 0 = none from by
    decide +kernel]; exact nofun)

theorem test_meets_TimedRailEventsAdvanceTheRun_falling :
    let s := withRails .stopping .on .falling (some ⟨.down, 1, 1, .falling⟩)
    let last := withRails .stopping .falling .off (some ⟨.down, 0, 3, .falling⟩)
    let waits := withRails .starting .falling .off (some ⟨.up, 0, 1, .waitOff⟩)
    let other := withRails .starting .on .falling (some ⟨.up, 0, 3, .dwell 9⟩)
    let alone := withRails .stopping .falling .off none
    ((s.rail 0 .aux).state = .falling ∧ s.run 0 = some ⟨.down, 1, 1, .falling⟩
        ∧ (look s.profiles 1).drop (1 - 1) = .drop .aux :: [.drop .core])
      ∧ ((last.rail 0 .core).state = .falling ∧ last.run 0 = some ⟨.down, 0, 3, .falling⟩
        ∧ (look last.profiles 0).drop (3 - 1) = [.dwell 20])
      ∧ ((waits.rail 0 .core).state = .falling ∧ waits.run 0 = some ⟨.up, 0, 1, .waitOff⟩
        ∧ (look waits.profiles 0).drop (1 - 1) = .raise .core :: [.raise .aux, .dwell 20])
      ∧ ((other.rail 0 .aux).state = .falling ∧ other.run 0 = some ⟨.up, 0, 3, .dwell 9⟩)
      ∧ (alone.rail 0 .core).state = .falling ∧ alone.run 0 = none := by
  decide +kernel

theorem test_meets_TimedRailEventsAdvanceTheRun_steps :
    (∀ x ∈ [RailState.off, .waitGrant, .rising, .on, .falling],
        ((withRails .starting x .off (some ⟨.up, 0, 1, .sample⟩)).rail 0 .core).state = x
          ∧ (withRails .starting x .off (some ⟨.up, 0, 1, .sample⟩)).run 0
            = some ⟨.up, 0, 1, .sample⟩)
      ∧ (withRails .stopping .on .off (some ⟨.down, 0, 3, .dwell 9⟩)).run 0
          = some ⟨.down, 0, 3, .dwell 9⟩ := by
  decide +kernel

theorem test_meets_RegFaultIsRaisedWhenItsConditionBecomesTrue :
    (withRails .stressing .on .off none).resetting = none := rfl

theorem test_meets_ProfileReportsMoveTheSocket :
    let up := withRails .starting .on .on none
    let down (d : StopDest) : State := (withRails .stopping .off .off none).modSock 0 fun r =>
      { r with state := .stopping, stopDest := some d }
    (up.sock 0).state = .starting ∧ up.run 0 = none
      ∧ ((inMode .run).sock 0).state ≠ .starting ∧ ((inMode .run).sock 0).state ≠ .stopping
      ∧ (withRails .starting .on .on (some ⟨.up, 0, 3, .dwell 9⟩)).run 0 ≠ none
      ∧ bothOff 0 up = false
      ∧ (∀ d ∈ [StopDest.idle, .done, .retired, .held], ((down d).sock 0).state = .stopping
          ∧ (down d).run 0 = none ∧ bothOff 0 (down d) = true
          ∧ ((down d).sock 0).stopDest = some d) := by
  decide +kernel

/-! ### Hypotheses that are met: sockets and modes -/

theorem test_meets_StopOrdersActByState :
    (withState .run .starting).resetting = none
      ∧ (withState .run .starting).live 0 = true ∧ (withState .pause .stressing).live 0 = true
      ∧ ((withState .shutdown .stopping).sock 0).state = .stopping
      ∧ (∀ x ∈ [SocketState.empty, .idle, .held, .retired, .done],
          (withState .run x).busy 0 = false) := by
  decide +kernel

theorem test_meets_SocketRequestChecksRunInOrder :
    15 < (16#8).toNat ∧ (15 : Socket).val = (15#8).toNat ∧ (onBoard .attaching).resetting = none
      ∧ (onBoard .attaching).board.attach = .attaching
      ∧ (∀ a ∈ [AttachState.detached, .present, .failed],
          (onBoard a).board.attach ≠ .attaching ∧ (onBoard a).board.attach ≠ .attached)
      ∧ (onBoard .attached).board.attach = .attached ∧ ((onBoard .attached).sock 15).state = .empty
      ∧ ((inMode .safe).sock 0).state ≠ .empty
      ∧ (∀ l ∈ [[Mode.run], [Mode.run, Mode.pause]], (inMode .safe).mode ∉ l)
      ∧ (inMode .run).mode ∉ [Mode.config] := by
  decide +kernel

theorem test_meets_SocketsStartStopAndRetryByState :
    (inMode .run).resetting = none ∧ (0 : Socket).val = (0#8).toNat
      ∧ (inMode .run).board.attach = .attached ∧ (inMode .run).mode = .run
      ∧ (inMode .pause).mode = .pause
      ∧ (∀ x ∈ [SocketState.idle, .starting, .stressing, .stopping, .held, .retired, .done],
          ((withState .run x).sock 0).state = x ∧ x ≠ .empty)
      ∧ (withState .run .starting).live 0 = true
      ∧ (∀ h ∈ [HoldReason.policy, .shed], (heldFor .run h 1).board.attach = .attached
          ∧ ((heldFor .run h 1).sock 0).state = .held
          ∧ ((heldFor .run h 1).sock 0).holdReason = some h
          ∧ ((heldFor .run h 1).sock 0).holdTime = some (0 + 1))
      ∧ ((heldFor .run .policy 1).sock 0).retries < (heldFor .run .policy 1).board.host.retryLimit
      ∧ (heldFor .run .policy 2).board.host.retryLimit ≤ ((heldFor .run .policy 2).sock 0).retries
      ∧ ((heldFor .run .policy 2).sock 0).holdKind = some .activity
      ∧ ((withSock .pause fun r => { r with expiryDue := true }).sock 0).expiryDue = true
      ∧ (((heldFor .run .safe 0).sock 0).state = .held
        ∧ ((heldFor .run .safe 0).sock 0).holdReason = some .safe)
      ∧ ((inMode .shutdown).mode ≠ .run ∧ (inMode .shutdown).mode ≠ .pause)
      ∧ (((withState .run .held).sock 0).expiryDue = false
        ∧ ((withState .run .held).sock 0).holdTime = none)
      ∧ (bothOff 0 (inMode .run) = true ∧ look (inMode .run).profiles
          ((inMode .run).sock 0).params.upProfile = .raise .core :: [.raise .aux, .dwell 20]) := by
  decide +kernel

theorem test_meets_ClearSocketEmptiesTheHistory :
    (inMode .run).mode ≠ .config
      ∧ (∀ x ∈ [SocketState.idle, .held, .retired, .done], ((withState .config x).sock 0).state = x
          ∧ (withState .config x).resetting = none ∧ (withState .config x).board.attach = .attached
          ∧ (withState .config x).mode = .config ∧ ((withState .config x).sock 0).state ≠ .empty) := by
  decide +kernel

theorem test_meets_SetSocketParamsWritesAdjustedValues :
    (inMode .run).resetting = none ∧ (3 : Socket).val = (3#8).toNat
      ∧ (inMode .run).board.attach = .attached ∧ ((inMode .run).sock 3).state ≠ .empty
      ∧ 3 < (4#8).toNat ∧ 2 < (3#8).toNat ∧ 16777215 < (16777216#32).toNat
      ∧ (3 : ProfileId).val = (3#8).toNat ∧ (0 : ProfileId).val = (0#8).toNat
      ∧ EdgeSelection.both.code = (2#8).toNat ∧ EdgeSelection.rise.code = (0#8).toNat
      ∧ (16777215#32).toNat ≤ 16777215 := by
  decide +kernel

theorem test_meets_QuenchAndOvenEnterSafe :
    (inMode .safe).resetting = none ∧ (inMode .safe).mode = .safe
      ∧ (∀ m ∈ [Mode.config, .run, .pause, .shutdown],
          (inMode m).mode ≠ .safe ∧ (inMode m).ovenOk = true)
      ∧ ({ inMode .run with ovenOk := false } : State).ovenOk = false := by
  decide +kernel

theorem test_meets_StartChecksAndBeginsTheRun :
    (inMode .run).mode ≠ .config
      ∧ ((onBoard .failed).mode = .config ∧ (onBoard .failed).board.attach ≠ .attached)
      ∧ (inMode .config).resetting = none ∧ (inMode .config).mode = .config
      ∧ (inMode .config).board.attach = .attached ∧ (inMode .config).ovenOk = true
      ∧ ({ inMode .config with ovenOk := false } : State).ovenOk = false
      ∧ (∀ k : Socket, upValid (look (inMode .config).profiles
            ((inMode .config).sock k).params.upProfile) = true
          ∧ downValid (look (inMode .config).profiles
            ((inMode .config).sock k).params.downProfile) = true
          ∧ ((inMode .config).sock k).params.target ≤ (inMode .config).absLimit)
      ∧ (∀ i : SlotId, ((inMode .config).slot i).edgeMin ≤ ((inMode .config).slot i).edgeMax)
      ∧ (((inMode .config).sock 3).state = .idle ∧ ((inMode .config).sock 4).state = .empty)
      ∧ (bothOff 3 (inMode .config) = true ∧ look (inMode .config).profiles
          ((inMode .config).sock 3).params.upProfile = .raise .core :: [.raise .aux, .dwell 20]) := by
  decide +kernel

/-- Socket 0 with other parameters in CONFIG. -/
def withParams (f : HostParams → HostParams) : State :=
  withSock .config fun r => { r with params := f r.params }

theorem test_meets_StartChecksAndBeginsTheRun_failing :
    (let s := withParams fun p => { p with upProfile := 1 };
      (s.sock 0).state = .idle ∧ upValid (look s.profiles (s.sock 0).params.upProfile) = false)
      ∧ (let s := withParams fun p => { p with downProfile := 0 };
          (s.sock 0).state = .idle ∧ (∀ k, upValid (look s.profiles (s.sock k).params.upProfile) = true)
          ∧ downValid (look s.profiles (s.sock 0).params.downProfile) = false)
      ∧ (let s := withParams fun p => { p with target := 2401 };
          (∀ k, upValid (look s.profiles (s.sock k).params.upProfile) = true
            ∧ downValid (look s.profiles (s.sock k).params.downProfile) = true)
          ∧ s.absLimit < (s.sock 0).params.target)
      ∧ (let s := withSlot .config fun x => { x with edgeMin := 1 };
          (∀ k, (s.sock k).params.target ≤ s.absLimit) ∧ (s.slot 0).edgeMax < (s.slot 0).edgeMin) := by
  decide +kernel

theorem test_meets_PauseResumeAndClearMoveTheMode :
    (inMode .run).resetting = none ∧ (inMode .run).mode = .run ∧ (inMode .safe).mode = .safe
      ∧ (inMode .config).mode ≠ .run ∧ (inMode .config).mode ≠ .pause ∧ (inMode .config).mode ≠ .safe
      ∧ (inMode .safe).ovenOk = true ∧ ({ inMode .safe with ovenOk := false } : State).ovenOk = false
      ∧ (inMode .pause).mode = .pause := by
  decide +kernel

/-- A timer has no time left at 0 (R104): every pair of answers occurs for the two timers. -/
theorem test_meets_PauseResumeAndClearMoveTheMode_timers :
    let out (x : Timer) : Prop := x = .frozen 0 ∨ ∃ d, x = .running d ∧ d ≤ (inMode .pause).now
    ¬out .stopped ∧ ¬out (.frozen 1) ∧ ¬out (.running 1) ∧ out (.frozen 0) ∧ out (.running 0) := by
  have h : (inMode .pause).now = 0 := rfl
  simp [h]

theorem test_meets_ShutdownStopsEveryRunningSocket :
    (inMode .safe).mode ≠ .run ∧ (inMode .safe).mode ≠ .pause ∧ (inMode .safe).resetting = none
      ∧ (inMode .run).mode = .run ∧ (∀ k, (inMode .run).busy k = false)
      ∧ (withState .pause .starting).mode = .pause ∧ (withState .pause .starting).busy 0 = true
      ∧ (withState .pause .starting).live 0 = true ∧ (withState .pause .starting).live 1 = false
      ∧ downValid (look (inMode .run).profiles ((inMode .run).sock 0).params.downProfile) = true
      ∧ (∀ x ∈ [RailState.off, .waitGrant, .rising, .on, .falling],
        let s := withRails .starting x .off (some ⟨.up, 0, 1, .rising⟩)
        s.mode = .run ∧ (s.rail 0 .core).state = x ∧ s.run 0 ≠ none ∧ (s.sock 0).state = .starting) := by
  decide +kernel

/-! ### Hypotheses that are met: heaters, sensing, supply -/

theorem test_meets_TheRampAndControlStages :
    (255 ≤ 255 ∧ (256000 : Nat) ≤ 256000) ∧ ((2000 : Int) - 1992).natAbs ≤ 8
      ∧ (8 < ((2000 : Int) - 1991).natAbs ∧ (1991 : Int) < 2000)
      ∧ (8 < ((2000 : Int) - 2009).natAbs ∧ (2000 : Int) < 2009)
      ∧ (1000 < (1 : Int) + 256000 / 256 ∧ (0 : Int) < 1) ∧ ((-1 : Int) + 255 / 256 < 0 ∧ (-1 : Int) < 0)
      ∧ ¬((1000 < (0 : Int) + 256000 / 256 ∧ (0 : Int) < 1) ∨ ((0 : Int) + 256000 / 256 < 0 ∧ (1 : Int) < 0)) := by
  decide +kernel

/-- A TEMP channel of socket 0 is next, with the socket in a state and this invalid counter. -/
def atTemp (x : SocketState) (invalid : Nat) : State :=
  let s := atChannel (.temp 0) (withState .run x)
  { s with heat := put s.heat 0 { HeatControl.reset with invalid := invalid } }

theorem test_meets_ATempArrivalRunsTheStages :
    (∀ x ∈ [SocketState.idle, .starting, .stressing, .stopping],
        (atTemp x 1).resetting = none ∧ (atTemp x 1).scan.round = some ⟨42, .temp 0, 0⟩
          ∧ ((atTemp x 1).sock 0).state = x)
      ∧ (atTemp .idle 1).busy 0 = false ∧ (atTemp .starting 1).live 0 = true
      ∧ (tempSample 4080 0 42).value = none ∧ (tempSample 4079 0 42).value = some 3184
      ∧ (look (atTemp .starting 1).heat 0).invalid + 1 < 3
      ∧ 3 ≤ (look (atTemp .starting 2).heat 0).invalid + 1
      ∧ (tempSample 3243 0 42).value = some 2400 ∧ (atTemp .stressing 1).absLimit = 2400
      ∧ (tempSample 3242 0 42).value = some 2399 := by
  decide +kernel

theorem test_sensor_fail_is_taken_at_once :
    gives (exec (.channelArrival 4095#12) (atTemp .stressing 2)) (fun t => t.fails.isEmpty
      && (t.sock 0).state == .stopping && (t.sock 0).holdKind == some .sensor
      && t.log == [⟨0, .sensor, none, 4095#16, 0, .hold, 1⟩]) = true := by
  decide +kernel

/-- An UNDERCURRENT of the last VERIFY of an UP run is taken while the socket is STARTING (R132). -/
theorem test_last_verify_fails_before_the_report :
    let s := atChannel (.current 0 .core) { withRails .starting .on .on (some ⟨.up, 3, 4, .sample⟩) with
      profiles := put State.reset.profiles 3 [.raise .core, .raise .aux, .dwell 1, .verify .core 100 9000] }
    gives (exec (.channelArrival 0#12) s) (fun t => t.fails.isEmpty
      && (t.sock 0).state == .stopping && (t.sock 0).holdKind == some .undercurrent
      && t.log == [⟨0, .undercurrent, none, 0#16, 0, .hold, 1⟩]
      && gives (exec (.upProfileComplete 0) t) (· == t)) = true := by
  decide +kernel

theorem test_multiplexer_follows_the_round :
    (atChannel (.current 3 .aux) (inMode .run)).senseSelect = some (.current 3 .aux)
      ∧ (inMode .run).senseSelect = none := by
  decide +kernel

/-- A rail without a current record: its power is sent as 0 with its flag clear (R171). -/
theorem test_absent_rail_power_is_sent_as_zero :
    State.reset.railPower 5 .aux = none ∧ (putRail 5 .aux State.reset).drop 7 = [0#8, 0#8, 0#8] := by
  decide +kernel

theorem test_meets_CodesAreConverted :
    (atChannel (.temp 15) (inMode .run)).resetting = none
      ∧ (atChannel (.temp 15) (inMode .run)).scan.round = some ⟨42, .temp 15, 0⟩
      ∧ (15#12).toNat ≤ 15 ∧ 16 ≤ (16#12).toNat ∧ (4079#12).toNat ≤ 4079 ∧ 4080 ≤ (4080#12).toNat
      ∧ (atChannel (.current 15 .aux) (inMode .run)).scan.round = some ⟨42, .current 15 .aux, 0⟩
      ∧ (atChannel .bulk (inMode .run)).scan.round = some ⟨42, .bulk, 0⟩ := by
  decide +kernel

theorem test_meets_ACurrentArrivalIsComparedWithTheTrip :
    let s := atChannel (.current 0 .core) (withRails .stressing .on .on none)
    let v := atChannel (.current 0 .core)
      (verifying (withRails .starting .on .on (some ⟨.up, 3, 4, .sample⟩)))
    s.resetting = none ∧ s.scan.round = some ⟨42, .current 0 .core, 0⟩ ∧ s.run 0 = none
      ∧ s.powered 0 .core = true ∧ s.trip .core = 10000
      ∧ v.scan.round = some ⟨42, .current 0 .core, 0⟩ ∧ v.run 0 = some ⟨.up, 3, 4, .sample⟩
      ∧ (look v.profiles 3).drop (4 - 1) = .verify .core 0 9000 :: [.dwell 1, .drop .core]
      ∧ (look (runSteps [.dwell 1, .drop .core] 5 0 (setMark 0 .core true v)).supply.measured 0).core = true
      ∧ (look (runSteps [.drop .core] 5 0 (setMark 0 .core true v)).supply.measured 0).core = false := by
  decide +kernel

theorem test_meets_TwoLowBulkSamplesEnterSafe :
    let s := atChannel .bulk (inMode .run)
    s.resetting = none ∧ s.scan.round = some ⟨42, .bulk, 0⟩ ∧ s.mode ≠ .safe ∧ s.bulkLow = 0
      ∧ s.brd.bulkMinimum ≤ (2750#12).toNat * 16 ∧ (2749#12).toNat * 16 < s.brd.bulkMinimum
      ∧ ({ s with bulkLow := 1 } : State).bulkLow ≠ 0 := by
  decide +kernel

theorem test_meets_RoundAndCarrierClocksRun :
    (inMode .safe).resetting = none ∧ (inMode .safe).board.attach = .attached
      ∧ (inMode .safe).scan.round = none ∧ (onBoard .present).board.attach ≠ .attached
      ∧ (atChannel .bulk (inMode .run)).scan.round ≠ none
      ∧ look (inMode .run).heaterOff 0 = none
      ∧ look ({ inMode .run with heaterOff := put (inMode .run).heaterOff 0 (some 9) } : State).heaterOff 0
          = some 9 := by
  decide +kernel

theorem test_meets_HeaterDrawsStayWithinTheAllowance :
    (let s := sharing 600 3000 3000 fun _ => 500;
      (s.bulkLimit : Int) - (allot s).supply.railAllotment ≤ 0)
      ∧ (let s := sharing 1 3016 3000 fun _ => 1000;
          0 < (s.bulkLimit : Int) - (allot s).supply.railAllotment
            ∧ ((sumSockets fun k => look s.brd.heaterRating k * 1000 / 1000 : Nat) : Int)
              ≤ (s.bulkLimit : Int) - (allot s).supply.railAllotment)
      ∧ (let s := sharing 1 3015 3000 fun _ => 1000;
          0 < (s.bulkLimit : Int) - (allot s).supply.railAllotment
            ∧ (s.bulkLimit : Int) - (allot s).supply.railAllotment
              < (sumSockets fun k => look s.brd.heaterRating k * 1000 / 1000 : Nat)) := by
  decide +kernel

theorem test_meets_TheSecondOverloadShedsTheLargestSocket :
    let s : State := { withState .run .stressing with
      supply := { Supply.reset with railAllotment := 12001, overload := 1 } }
    (inMode .run).supply.railAllotment ≤ (inMode .run).bulkLimit
      ∧ s.bulkLimit < s.supply.railAllotment ∧ s.supply.overload ≠ 0
      ∧ ({ s with supply := { s.supply with overload := 0 } } : State).supply.overload = 0
      ∧ (∀ k, ((inMode .run).sock k).state ≠ .stressing) ∧ (s.sock 0).state = .stressing
      ∧ (∀ j, j ≠ 0 → (s.sock j).state ≠ .stressing) := by
  decide +kernel

/-- Socket 0 STRESSING with a RISING rail, at a BULK_V arrival, with a bulk power limit and a counter. -/
def overloading (limit overload : Nat) : State :=
  let s := withRails .stressing .rising .off none
  { atChannel .bulk s with
    board := { s.board with overrides := { Overrides.none with bulkLimit := some limit } }
    supply := { Supply.reset with overload := overload } }

theorem test_meets_TheSecondOverloadShedsTheLargestSocket_atRoundEnd :
    (overloading 899 1).resetting = none ∧ (overloading 899 1).scan.round = some ⟨42, .bulk, 0⟩
      ∧ (overloading 899 1).brd.bulkMinimum ≤ (2750#12).toNat * 16
      ∧ (sumSockets fun k => railShare (overloading 899 1) k .core
          + railShare (overloading 899 1) k .aux) = 900
      ∧ (overloading 899 1).bulkLimit < 900 ∧ 900 ≤ (overloading 900 1).bulkLimit
      ∧ (overloading 899 0).supply.overload = 0 ∧ (overloading 899 1).supply.overload ≠ 0
      ∧ Sheds 0 (overloading 899 1) := by
  unfold Sheds
  decide +kernel

/-! ### Hypotheses that are met: stimulus, activity, alarms -/

/-- A burst of slot 0 on the bus, over socket 0, in a mode, with slot 0 changed. -/
def bursting (m : Mode) (f : Slot → Slot) : State :=
  { withSlot m (fun x => f { x with state := .active }) with bus := some ⟨0, 1#16, 0⟩ }

theorem test_meets_SetSlotWritesAnIdleSlot :
    (inMode .run).resetting = none ∧ 7 < (8#8).toNat ∧ (7 : SlotId).val = (7#8).toNat
      ∧ ((inMode .run).slot 7).state = .idle ∧ ((bursting .run id).slot 0).state ≠ .idle
      ∧ 63 < (64#8).toNat ∧ (0#16).toNat = 0 ∧ 2 < (3#8).toNat ∧ 1 < (2#8).toNat
      ∧ (runningMode (inMode .shutdown).mode = true ∧ (0#16).toNat < (1#16).toNat)
      ∧ runningMode (inMode .safe).mode = false
      ∧ (63#8).toNat ≤ 63 ∧ 0 < (1#16).toNat ∧ (5#16).toNat ≤ (5#16).toNat
      ∧ Dispatch.timer1.code = (2#8).toNat ∧ Retry.resend.code = (1#8).toNat := by
  decide +kernel

theorem test_meets_SendSlotDispatchesAndTheArbiterStarts :
    (inMode .run).resetting = none ∧ 7 < (8#8).toNat ∧ (0 : SlotId).val = (0#8).toNat
      ∧ (inMode .pause).mode ≠ .run ∧ (inMode .run).mode = .run
      ∧ ((bursting .run id).slot 0).state ≠ .idle ∧ (bursting .run id).bus ≠ none
      ∧ ((bursting .run id).slot 1).state = .idle ∧ ((inMode .run).slot 0).state = .idle
      ∧ (inMode .run).bus = none ∧ (∀ j, ((inMode .run).slot j).state ≠ .pending)
      ∧ (∀ k, (inSet ((inMode .run).slot 0).mask k
          && decide (((inMode .run).sock k).state = .stressing)) = false)
      ∧ (let s := (withState .run .stressing).modSlot 0 fun x => { x with mask := 1#16 };
          s.bus = none ∧ (∀ j, (s.slot j).state ≠ .pending)
            ∧ (inSet (s.slot 0).mask 0 && decide ((s.sock 0).state = .stressing)) = true) := by
  decide +kernel

theorem test_meets_AbortSlotCancelsADispatch :
    7 < (8#8).toNat ∧ (7 : SlotId).val = (7#8).toNat ∧ (inMode .safe).resetting = none
      ∧ (∀ x ∈ [SlotState.idle, .pending, .active],
          ((withSlot .run fun y => { y with state := x }).slot 0).state = x) := by
  decide +kernel

theorem test_meets_DispatchTimersExpireAndReload :
    (inMode .run).resetting = none
      ∧ ¬((49#32).toNat = 0 ∨ (50 ≤ (49#32).toNat ∧ (49#32).toNat ≤ 600000))
      ∧ ¬((600001#32).toNat = 0 ∨ (50 ≤ (600001#32).toNat ∧ (600001#32).toNat ≤ 600000))
      ∧ ((0#32).toNat = 0 ∨ (50 ≤ (0#32).toNat ∧ (0#32).toNat ≤ 600000))
      ∧ ((50#32).toNat = 0 ∨ (50 ≤ (50#32).toNat ∧ (50#32).toNat ≤ 600000))
      ∧ ((600000#32).toNat = 0 ∨ (50 ≤ (600000#32).toNat ∧ (600000#32).toNat ≤ 600000))
      ∧ timerOf .timer1 ({ bursting .run id with timers := ⟨.stopped, .running 0⟩ } : State) = .running 0
      ∧ (bursting .run id).bus ≠ none ∧ (inMode .pause).mode ≠ .run := by
  decide +kernel

theorem test_meets_DispatchTimersExpireAndReload_stopped (d : Nat) :
    timerOf .timer0 (inMode .run) ≠ .running d := by
  rw [show timerOf .timer0 (inMode .run) = .stopped from by decide +kernel]
  exact nofun

theorem test_meets_BurstEndsConfirmOrWithdraw :
    (∀ m ∈ [Mode.run, .pause, .shutdown], (bursting m id).resetting = none
        ∧ (bursting m id).bus = some ⟨0, 1#16, 0⟩ ∧ (bursting m id).mode = m
        ∧ (∀ j, j ≠ 0 → ((bursting m id).slot j).state ≠ .pending))
      ∧ ((bursting .run id).slot 0).retry ≠ .resend
      ∧ (let s := bursting .run fun x => { x with retry := .resend, resends := 2 };
          (s.slot 0).retry = .resend ∧ (s.slot 0).resends < 3 ∧ (s.slot 0).abortMark = false)
      ∧ 3 ≤ ((bursting .run fun x => { x with retry := .resend, resends := 3 }).slot 0).resends
      ∧ ((bursting .run fun x => { x with abortMark := true }).slot 0).abortMark = true
      ∧ (Mode.shutdown ≠ .run ∧ Mode.shutdown ≠ .pause) := by
  decide +kernel

theorem test_meets_BurstEndsConfirmOrWithdraw_choice :
    let s := ((bursting .run id).modSlot 2 fun x => { x with state := .pending })
    ¬∀ j, j ≠ 0 → (s.slot j).state ≠ .pending := by
  decide +kernel

/-- Socket 0 STRESSING with a line level and a window of this edge count, confirmed from 10 to 50. -/
def windowed (edges : Nat) : State :=
  let s := withState .run .stressing
  { s with mon := put s.mon 0 ⟨some .low, some ⟨edges, 10, 50, 1, none, 2400⟩, some .inactive, false⟩ }

theorem test_meets_EdgesAreCountedAndWindowsJudged :
    (windowed 10).resetting = none ∧ (onBoard .present).board.attach ≠ .attached
      ∧ inSet (inMode .run).brd.population 4 = false
      ∧ ((windowed 10).board.attach = .attached ∧ inSet (windowed 10).brd.population 0 = true)
      ∧ (look (windowed 10).mon 0).level = some .low ∧ LineLevel.low ≠ .high
      ∧ (look (inMode .run).mon 0).level = none ∧ (look (inMode .run).mon 0).window = none
      ∧ (∀ n ∈ [9, 10, 50, 51],
          (look (windowed n).mon 0).window = some ⟨n, 10, 50, 1, none, 2400⟩) := by
  decide +kernel

theorem test_meets_AlarmsAreLatchedReportedAndRead :
    (windowed 10).resetting = none ∧ (onBoard .present).board.attach ≠ .attached
      ∧ inSet (inMode .run).brd.population 4 = false
      ∧ ((windowed 10).board.attach = .attached ∧ inSet (windowed 10).brd.population 0 = true)
      ∧ (look (windowed 10).mon 0).alarm = some .inactive
      ∧ inSet (windowed 10).brd.alarmHigh 0 = decide (LineLevel.high = .high)
      ∧ ((windowed 10).sock 0).params.latchEnable = true
      ∧ (look (inMode .run).mon 0).alarm = none
      ∧ (onBoard .attaching).board.attach = .attaching := by
  decide +kernel

/-! ### Hypotheses that are met: fails, credit, invariants -/

/-- Socket 0 in a state and with a stop destination. -/
def stopping (x : SocketState) (d : Option StopDest) : State := withSock .run fun r =>
  { r with state := x, stopDest := d }

theorem test_meets_FailsAreCountedActedOnAndLogged :
    (∀ x ∈ [SocketState.empty, .idle, .held, .retired, .done], (stopping x none).busy 0 = false)
      ∧ (inMode .run).resetting = none
      ∧ (stopping .starting none).live 0 = true ∧ (stopping .stressing none).live 0 = true
      ∧ (look (inMode .run).policy (kindIndex .dutAlarm)).action = .count
      ∧ (look (inMode .run).policy (kindIndex .overtemp)).action = .hold
      ∧ (look (inMode .run).policy (kindIndex .overcurrent)).action = .retire
      ∧ (look (inMode .run).policy (kindIndex .overcurrent)).threshold
          ≤ satAdd 255 (look ((stopping .starting none).sock 0).episode (kindIndex .overcurrent)) 1
      ∧ ¬(look (inMode .run).policy (kindIndex .activity)).threshold
          ≤ satAdd 255 (look ((stopping .starting none).sock 0).episode (kindIndex .activity)) 1
      ∧ ((stopping .stopping (some .held)).sock 0).state = .stopping
      ∧ ((stopping .stopping (some .held)).sock 0).stopDest ≠ some .retired
      ∧ ((stopping .stopping (some .retired)).sock 0).stopDest = some .retired := by
  decide +kernel

/-- An entry of socket 0 with a repeat count. -/
def noted (n : Nat) : LogEntry := ⟨0, .dutAlarm, none, 0#16, 9, .none, n⟩

theorem test_meets_EntriesCoalesceAppendOrDrop :
    ({ State.reset with log := [noted 254] } : State).log = [] ++ [noted 254]
      ∧ ((noted 254).socket = (noted 1).socket ∧ (noted 254).kind = (noted 1).kind
        ∧ (noted 254).action = .none ∧ (noted 1).action = .none ∧ (noted 254).repeats < 255)
      ∧ ¬(noted 255).repeats < 255
      ∧ (List.replicate 63 (noted 255)).length < 64 ∧ 64 ≤ (List.replicate 64 (noted 255)).length := by
  decide +kernel

theorem test_meets_EntriesCoalesceAppendOrDrop_full (n : Nat) (older : List LogEntry) (x : LogEntry)
    (h : List.replicate n (noted 255) = older ++ [x]) : ¬x.repeats < 255 := by
  have hx : x ∈ List.replicate n (noted 255) := by simp [h]
  rw [List.eq_of_mem_replicate hx]
  decide

theorem test_meets_EveryFailIsAccountedFor :
    let s := withSock .run fun r =>
      { r with state := .stopping, unlogged := 254, cumulative := tab8 fun _ => 65534 }
    s.resetting = none ∧ s.busy 0 = true
      ∧ look (s.sock 0).cumulative (kindIndex .sensor) < 65535 ∧ (s.sock 0).unlogged < 255 := by
  decide +kernel

theorem test_meets_ReadFailsTakesTheOldestEntries :
    State.reset.resetting = none ∧ (0#8).toNat = 0 ∧ 8 < (9#8).toNat ∧ 1 ≤ (1#8).toNat
      ∧ (8#8).toNat ≤ 8 := by
  decide +kernel

theorem test_meets_SetPolicyKeepsTheStricterForm :
    State.reset.resetting = none ∧ (inMode .run).mode ≠ .config ∧ (inMode .config).mode = .config
      ∧ 7 < (8#8).toNat ∧ 2 < (3#8).toNat ∧ (0#8).toNat = 0 ∧ (1#8).toNat < 2 ∧ 15 < (16#8).toNat
      ∧ (kindIndex .overtemp).val = (3#8).toNat ∧ (kindIndex .dutAlarm).val = (7#8).toNat
      ∧ PolicyAction.count.code = (0#8).toNat ∧ PolicyAction.retire.code = (2#8).toNat
      ∧ 1 ≤ (1#8).toNat ∧ 2 ≤ (2#8).toNat ∧ (15#8).toNat ≤ 15 := by
  decide +kernel

theorem test_meets_TicksTestCreditAndLowerHolds :
    (inMode .run).nextTick = none ∧ nearTarget.resetting = none ∧ nearTarget.nextTick ≠ none
      ∧ nearTarget.mode = .run ∧ ({ nearTarget with mode := .pause } : State).mode ≠ .run
      ∧ (nearTarget.sock 0).state = .stressing ∧ (nearTarget.sock 4).state = .empty
      ∧ nearTarget.validTemp 0 = some 2085
      ∧ ((2085 : Int) - (nearTarget.sock 0).params.target).natAbs ≤ nearTarget.board.host.stressBand
      ∧ ((nearTarget.rail 0 .core).state = .on ∧ (nearTarget.rail 0 .aux).state = .on)
      ∧ (nearTarget.sock 0).lastPass = some 5005
      ∧ 5006 + 1 ≤ 5005 + nearTarget.board.host.activityAge
      ∧ (withState .run .stressing).validTemp 0 = none
      ∧ ((heldFor .run .shed 0).sock 0).state = .held
      ∧ ((heldFor .run .shed 0).sock 0).holdTime = some (0 + 1)
      ∧ ((heldFor .run .safe 0).sock 0).holdReason = some .safe := by
  decide +kernel

theorem test_meets_TicksTestCreditAndLowerHolds_failing :
    ¬((2129 : Int) - (nearTarget.sock 0).params.target).natAbs ≤ nearTarget.board.host.stressBand
      ∧ ¬((withRails .stressing .on .rising none).rail 0 .aux).state = .on
      ∧ ¬(5066 + 1 ≤ 5005 + nearTarget.board.host.activityAge) := by
  decide +kernel

/-- A running board about to take a code: sockets, rails, heaters and windows in every phase. -/
def busyBoard : State :=
  { windowed 12 with
    rails := put (inMode .run).rails 0 ⟨⟨.rising, some 5, 170⟩, .off⟩
    heat := put (inMode .run).heat 0 { HeatControl.reset with demand := 1000 }
    slots := put (inMode .run).slots 2 { Slot.reset with state := .active }
    bus := some ⟨2, 1#16, 9⟩
    log := [noted 255]
    pending := [.tick] }

theorem test_meets_the_invariants :
    RunOk busyBoard ∧ RailsOk busyBoard ∧ HeatOk busyBoard ∧ WindowOk busyBoard ∧ BusOk busyBoard
      ∧ LogOk busyBoard ∧ RisingOk busyBoard := by
  unfold RunOk RailsOk HeatOk WindowOk BusOk LogOk RisingOk
  decide +kernel

theorem test_meets_PolicyOk : PolicyOk busyBoard := by
  intro f
  cases f <;> decide +kernel

theorem test_meets_StepsTo : ∃ t, StepsTo busyBoard t :=
  ⟨_, rfl⟩

theorem test_meets_CreditNeverFallsButWhenCleared : ∀ k, (busyBoard.sock k).credit ≤ 4294967295 := by
  decide +kernel

end Sys2Proof.Machine
end

section
/-! SUPPORT. The proofs of chapter 01, sockets and the socket table. -/

namespace Sys2Proof.Machine

/-! ### Socket requests on an ATTACHED board (R12) -/

/-- Check 4 of R12: a populated socket, but a mode in which the request is not accepted. -/
theorem socketRequest_wrongMode {n : Byte} {k : Socket} (hk : k.val = n.toNat)
    (f : Socket → State → State) {s : State} (ha : s.board.attach = .attached)
    (he : (s.sock k).state ≠ .empty) : socketRequest n false f s = s.refuse .wrongMode := by
  rw [socketRequest_attached hk false f ha, if_neg he, if_pos rfl]

/-- A request that passes checks 1 to 4 of R12 is the request's own effect on the socket. -/
theorem socketRequest_accepted {n : Byte} {k : Socket} (hk : k.val = n.toNat)
    (f : Socket → State → State) {s : State} (ha : s.board.attach = .attached)
    (he : (s.sock k).state ≠ .empty) : socketRequest n true f s = f k s := by
  rw [socketRequest_attached hk true f ha, if_neg he, if_neg Bool.false_ne_true.symm]

/-! ### ClearSocket (R16) -/

theorem exec_clearSocket {n : Byte} {s : State} (hr : s.resetting = none) :
    exec (.clearSocket n) s = .next (clearSocket n s) :=
  outsideReset_run (clearSocket n) hr

/-- The four states that R16 names are not running states. -/
theorem busy_false_of_clearable {k : Socket} {s : State}
    (h : (s.sock k).state = .idle ∨ (s.sock k).state = .held ∨ (s.sock k).state = .retired
      ∨ (s.sock k).state = .done) : s.busy k = false := by
  unfold State.busy
  rcases h with h | h | h | h <;> rw [h]

/-- On a socket that does not run, ClearSocket empties the record, removes the tick result (R147) and
replies the code of IDLE. -/
theorem clearSocketBody_idle {k : Socket} {s : State} (hb : s.busy k = false) :
    clearSocketBody k s = { s with
      sockets := put s.sockets k (clearRecord (s.sock k))
      tickResult := put s.tickResult k none
      answer := some ⟨.ok, [1#8]⟩ } := by
  have hstate : (((s.modSock k clearRecord).setTickResult k none).sock k).state = .idle := by
    simp [State.sock, clearRecord]
  have hcode : put1 SocketState.idle.code = [1#8] := rfl
  unfold clearSocketBody replySocket
  rw [hb, if_neg Bool.false_ne_true, hstate, hcode]
  rfl

/-- Settles O26: outside CONFIG the check of the mode refuses; in CONFIG the socket does not run, so the
request is the clearing of its record. -/
theorem clearSocketEmptiesTheHistory : Obligations.ClearSocketEmptiesTheHistory := by
  intro n k s hr hk ha he
  refine ⟨fun hmode => ?_, fun hmode hstate => ?_⟩
  · have hrefused : (s.mode == .config) = false := beq_eq_false_iff_ne.mpr hmode
    unfold Refuses
    rw [exec_clearSocket hr, clearSocket, hrefused, socketRequest_wrongMode hk _ ha he]
    rfl
  · have haccepted : (s.mode == .config) = true := beq_iff_eq.mpr hmode
    rw [exec_clearSocket hr, clearSocket, haccepted, socketRequest_accepted hk _ ha he,
      clearSocketBody_idle (busy_false_of_clearable hstate)]
    rfl

end Sys2Proof.Machine
end

section
/-! SUPPORT. The proofs of chapter 02, the board table and the identity memory. -/

namespace Sys2Proof.Machine

/-! ### The board table leaves ATTACHED (R41, R98, R119, R161) -/

/-- Outside ATTACHED no block has anything to reset. -/
theorem leaveAttached_of_ne {s : State} (h : s.board.attach ≠ .attached) : leaveAttached s = s := by
  rw [leaveAttached, if_neg h]

/-- Out of ATTACHED the scan, the supply account, the bulk-low counter and the filtered levels are reset. -/
theorem leaveAttached_of_attached {s : State} (h : s.board.attach = .attached) :
    leaveAttached s = { s with
      scan := emptied s.scan
      supply := .reset
      bulkLow := 0
      mon := tab16 fun k => { look s.mon k with level := none, alarm := none } } := by
  rw [leaveAttached, if_pos h]
  rfl

/-- The board table itself stands until the caller changes it. -/
@[simp] theorem leaveAttached_board (s : State) : (leaveAttached s).board = s.board := by
  by_cases h : s.board.attach = .attached
  · rw [leaveAttached_of_attached h]
  · rw [leaveAttached_of_ne h]

/-! ### Attach (R25) -/

theorem exec_attach {s : State} (hr : s.resetting = none) : exec .attach s = .next (attach s) :=
  outsideReset_run attach hr

theorem attach_wrongMode {s : State} (hmode : s.mode ≠ .config) : attach s = s.refuse .wrongMode := by
  rw [attach, if_pos hmode]

/-- In CONFIG the check of the mode passes, and the attach state decides. -/
theorem attach_config {s : State} (hmode : s.mode = .config) :
    attach s =
      if s.board.attach = .attaching then s.refuse .busy
      else if s.board.attach = .detached then s.refuse .notAttached
      else (beginRead s).reply .ok (put1 AttachState.attaching.code) := by
  rw [attach, if_neg (not_not_intro hmode)]

theorem attach_busy {s : State} (hmode : s.mode = .config) (ha : s.board.attach = .attaching) :
    attach s = s.refuse .busy := by
  rw [attach_config hmode, if_pos ha]

theorem attach_notAttached {s : State} (hmode : s.mode = .config) (ha : s.board.attach = .detached) :
    attach s = s.refuse .notAttached := by
  rw [attach_config hmode, ha, if_neg (by decide), if_pos rfl]

/-- With both checks of the attach state passed the read begins, and the answer is the code of ATTACHING. -/
theorem attach_accepted {s : State} (hmode : s.mode = .config) (hbusy : s.board.attach ≠ .attaching)
    (hseated : s.board.attach ≠ .detached) : attach s = (beginRead s).reply .ok [2#8] := by
  have hcode : put1 AttachState.attaching.code = [2#8] := rfl
  rw [attach_config hmode, if_neg hbusy, if_neg hseated, hcode]

/-- A read begins with the resets on leaving ATTACHED, the reason removed and the limit of 150 ms set. -/
theorem beginRead_eq (s : State) :
    beginRead s = { leaveAttached s with board :=
      { s.board with
        attach := .attaching, failReason := none, readDeadline := some (s.now + 150000) } } := by
  rw [beginRead, leaveAttached_board]
  rfl

/-- Settles O10: outside CONFIG, in ATTACHING and in DETACHED a check refuses; from PRESENT, FAILED and
ATTACHED the read begins, and from ATTACHED alone the other blocks reset. -/
theorem attachChecksAndStartsTheRead : Obligations.AttachChecksAndStartsTheRead := by
  intro s hr reading
  rw [exec_attach hr, Refuses, Refuses, Refuses, exec_attach hr]
  refine ⟨fun hmode => ?_, fun hmode ha => ?_, fun hmode ha => ?_, fun hmode ha => ?_,
    fun hmode ha => ?_⟩
  · rw [attach_wrongMode hmode]
    rfl
  · rw [attach_busy hmode ha]
    rfl
  · rw [attach_notAttached hmode ha]
    rfl
  · have hstate : s.board.attach ≠ .attaching ∧ s.board.attach ≠ .detached
        ∧ s.board.attach ≠ .attached := by
      rcases ha with ha | ha <;> rw [ha] <;> decide
    obtain ⟨hbusy, hseated, hattached⟩ := hstate
    rw [attach_accepted hmode hbusy hseated, beginRead_eq, leaveAttached_of_ne hattached]
    rfl
  · have hstate : s.board.attach ≠ .attaching ∧ s.board.attach ≠ .detached := by
      rw [ha]
      decide
    obtain ⟨hbusy, hseated⟩ := hstate
    rw [attach_accepted hmode hbusy hseated, beginRead_eq, leaveAttached_of_attached ha]
    rfl

end Sys2Proof.Machine
end

section
/-! SUPPORT. The proofs of chapter 03, sense scanning. -/

namespace Sys2Proof.Machine

/-! ### What a temperature code converts to (R42) -/

theorem tempSample_short {code : Nat} (h : code ≤ 15) (offset : Int) (round : Nat) :
    tempSample code offset round = ⟨none, .short, code, round⟩ :=
  if_pos (by omega)

/-- Rounding down before or after the step from whole to signed numbers is the same: a code is not
negative. -/
theorem tempSample_valid {code : Nat} (hlo : 16 ≤ code) (hhi : code ≤ 4079) (offset : Int)
    (round : Nat) : tempSample code offset round =
      ⟨some (clampInt (-640) 3200 ((code : Int) * 15 / 16 - 640 + offset)), .valid, code, round⟩ := by
  have hfloor : ((code * 15 / 16 : Nat) : Int) = (code : Int) * 15 / 16 := by push_cast; rfl
  rw [tempSample, if_neg (by omega), if_pos (by omega), tempValue, hfloor]

theorem tempSample_openCircuit {code : Nat} (h : 4080 ≤ code) (offset : Int) (round : Nat) :
    tempSample code offset round = ⟨none, .openCircuit, code, round⟩ := by
  rw [tempSample, if_neg (by omega), if_neg (by omega)]

/-! ### What takes a sample leaves the scanner's records -/

theorem RailsOnly.scan {s t : State} (h : RailsOnly s t) : t.scan = s.scan := (congrArg State.scan h.eq :)

theorem SocketsOnly.scan {s t : State} (h : SocketsOnly s t) : t.scan = s.scan :=
  (congrArg State.scan h.eq :)

@[simp] theorem zeroHeat_scan (k : Socket) (s : State) : (zeroHeat k s).scan = s.scan := rfl

@[simp] theorem storeEntry_scan (e : LogEntry) (s : State) : (storeEntry e s).scan = s.scan := by
  unfold storeEntry
  split <;> rfl

@[simp] theorem actAndLog_scan (f : FailMsg) (act : Option OrderDest × LogAction) (s : State) :
    (actAndLog f act s).scan = s.scan := by
  unfold actAndLog
  rw [storeEntry_scan]
  split
  · exact (takeOrder_only _ s).scan
  · rfl

/-- A fail acts on sockets and on the log, not on the scanner (R136 to R141). -/
@[simp] theorem takeFail_scan (f : FailMsg) (s : State) : (takeFail f s).scan = s.scan := by
  unfold takeFail
  split <;> simp

@[simp] theorem takeVerdict_scan (v : Option FailMsg) (s : State) :
    (takeVerdict v s).scan = s.scan := by
  cases v with
  | none => rfl
  | some f => exact takeFail_scan f s

@[simp] theorem invalidSample_scan (k : Socket) (code : Nat) (s : State) :
    (invalidSample k code s).scan = s.scan := by
  unfold invalidSample
  dsimp only
  split <;> simp

@[simp] theorem overLimit_scan (k : Socket) (t : Int) (s : State) :
    (overLimit k t s).scan = s.scan := by
  rw [overLimit, takeFail_scan, zeroHeat_scan]

@[simp] theorem validSample_scan (k : Socket) (t : Int) (s : State) :
    (validSample k t s).scan = s.scan := by
  unfold validSample
  dsimp only
  split
  · simp
  · split <;> simp

/-- The Heater Controller, the user of a TEMP arrival (R39). -/
@[simp] theorem heaterSample_scan (k : Socket) (x : Sample) (s : State) :
    (heaterSample k x s).scan = s.scan := by
  unfold heaterSample
  split
  iterate 2
    split
    · exact validSample_scan k _ s
    · exact invalidSample_scan k _ s
  · split
    · split
      · exact overLimit_scan k _ s
      · rfl
    · rfl
  all_goals rfl

/-- The Supply Allotter and the Rail Sequencer, the users of a current arrival (R39). -/
@[simp] theorem deliverCurrent_scan (k : Socket) (r : RailKind) (current : Nat) (s : State) :
    (deliverCurrent k r current s).scan = s.scan := by
  have hjudged : (sequencerSample k r current (setMark k r true s)).scan = s.scan :=
    ((setMark_only k r true s).trans (sequencerSample_only k r current _)).scan
  unfold deliverCurrent
  dsimp only
  split
  · exact hjudged
  · split
    · exact hjudged
    · exact hjudged

@[simp] theorem enterSafe_scan (c : SafeCause) (s : State) : (enterSafe c s).scan = s.scan := by
  unfold enterSafe
  split <;> rfl

/-- The Mode Controller, the user of a BULK_V arrival (R39). -/
@[simp] theorem compareBulk_scan (mV : Nat) (s : State) : (compareBulk mV s).scan = s.scan := by
  unfold compareBulk
  split
  · split
    · rfl
    · exact enterSafe_scan _ _
  · rfl

/-- The round end, which a BULK_V arrival brings (R40). -/
@[simp] theorem roundEnd_scan (s : State) : (roundEnd s).scan = s.scan := by
  unfold roundEnd
  dsimp only
  split
  · exact (grantDecision_only _).scan
  · split
    · exact ((takeOrder_only _ _).trans (grantDecision_only _).toSockets).scan
    · exact (grantDecision_only _).scan

/-! ### The record that an arrival leaves (R38) -/

theorem exec_channelArrival (code : BitVec 12) {s : State} (hr : s.resetting = none) :
    exec (.channelArrival code) s = .next (takeCode code.toNat s) :=
  outsideReset_run (takeCode code.toNat) hr

theorem takeCode_temp_record {code number at_ : Nat} {k : Socket} {s : State}
    (h : s.scan.round = some ⟨number, .temp k, at_⟩) :
    look (takeCode code s).scan.temp k
      = some (tempSample code (look s.brd.calibration k) number) := by
  rw [takeCode, h]
  dsimp only
  rw [arriveTemp, heaterSample_scan, look_put_same]

theorem takeCode_current_record {code number at_ : Nat} {k : Socket} {r : RailKind} {s : State}
    (h : s.scan.round = some ⟨number, .current k r, at_⟩) :
    (look (takeCode code s).scan.current k).get r
      = some ⟨some (currentValue code (s.brd.rail.get r).fullScale), .valid, code, number⟩ := by
  rw [takeCode, h]
  dsimp only
  rw [arriveCurrent, takeVerdict_scan, deliverCurrent_scan, look_put_same, get_set_same]

theorem takeCode_bulk_record {code number at_ : Nat} {s : State}
    (h : s.scan.round = some ⟨number, .bulk, at_⟩) :
    (takeCode code s).scan.bulk = some ⟨some (bulkValue code), .valid, code, number⟩ := by
  rw [takeCode, h]
  dsimp only
  rw [arriveBulk, roundEnd_scan, compareBulk_scan]

/-- Settles O34: the arrival writes the converted sample to the channel's record, none of the record's
users touches it in the same step, and the conversion is that of R42, R43 or R44 by the channel. -/
theorem codesAreConverted : Obligations.CodesAreConverted := by
  intro code number at_ s hr
  rw [exec_channelArrival code hr]
  refine ⟨fun k hround => ⟨_, rfl, ?_⟩, fun k r hround => ⟨_, rfl, ?_⟩, fun hround => ⟨_, rfl, ?_⟩⟩
  · rw [takeCode_temp_record hround]
    refine ⟨fun hshort => ?_, fun hlo hhi => ?_, fun hopen => ?_⟩
    · rw [tempSample_short hshort]
    · rw [tempSample_valid hlo hhi]
    · rw [tempSample_openCircuit hopen]
  · exact takeCode_current_record hround
  · exact takeCode_bulk_record hround

end Sys2Proof.Machine
end

section
/-! SUPPORT. The proofs of chapter 04, rail sequencing. -/

namespace Sys2Proof.Machine

/-! ### SetProfile's checks and effect (R51) -/

theorem exec_setProfile (n : Byte) (steps : List RawStep) {s : State} (hr : s.resetting = none) :
    exec (.setProfile n steps) s = .next (setProfile n steps s) :=
  outsideReset_run (setProfile n steps) hr

theorem setProfile_wrongMode {n : Byte} {steps : List RawStep} {s : State} (hmode : s.mode ≠ .config) :
    setProfile n steps s = s.refuse .wrongMode := by
  rw [setProfile, if_pos hmode]

theorem setProfile_unknownProfile {n : Byte} {steps : List RawStep} {s : State}
    (hmode : s.mode = .config) (hn : 3 < n.toNat) : setProfile n steps s = s.refuse .range := by
  rw [setProfile, if_neg (not_not_intro hmode), profileOf_none hn]

/-- In CONFIG, with a profile number that names a profile, the count and the steps decide. -/
theorem setProfile_config {n : Byte} {p : ProfileId} {steps : List RawStep} {s : State}
    (hmode : s.mode = .config) (hp : profileOf n = some p) :
    setProfile n steps s =
      if steps.length = 0 ∨ 8 < steps.length then s.refuse .range
      else (stepsOf steps).elim (s.refuse .range) fun xs =>
        profileReply p { s with profiles := put s.profiles p xs } := by
  rw [setProfile, if_neg (not_not_intro hmode), hp]
  cases stepsOf steps <;> rfl

/-- Checks 2 to 4 share the result RANGE, so what check 3 or 4 finds fixes the result whichever of the
three fails first. -/
theorem setProfile_range {n : Byte} {steps : List RawStep} {s : State} (hmode : s.mode = .config)
    (hbad : (steps.length = 0 ∨ 8 < steps.length) ∨ ∃ x ∈ steps, BadStep x) :
    setProfile n steps s = s.refuse .range := by
  by_cases hn : 3 < n.toNat
  · exact setProfile_unknownProfile hmode hn
  · have hp : profileOf n = some ⟨n.toNat, by omega⟩ := profileOf_val rfl
    rw [setProfile_config hmode hp]
    by_cases hcount : steps.length = 0 ∨ 8 < steps.length
    · rw [if_pos hcount]
    · rw [if_neg hcount, stepsOf_bad (hbad.resolve_left hcount)]
      rfl

/-- With every check passed the profile named is replaced whole by the steps meant. -/
theorem setProfile_accepted {n : Byte} {p : ProfileId} {steps : List RawStep} {s : State}
    (hmode : s.mode = .config) (hp : p.val = n.toNat) (hfew : 1 ≤ steps.length)
    (hmany : steps.length ≤ 8) (hsound : ∀ x ∈ steps, ¬BadStep x) :
    setProfile n steps s
      = profileReply p { s with profiles := put s.profiles p (steps.map stepMeant) } := by
  rw [setProfile_config hmode (profileOf_val hp), if_neg (by omega), stepsOf_sound hsound]
  rfl

/-! ### GetProfile (R51) -/

theorem exec_getProfile (n : Byte) {s : State} (hr : s.resetting = none) :
    exec (.getProfile n) s = .next (getProfile n s) :=
  outsideReset_run (getProfile n) hr

theorem getProfile_range {n : Byte} {s : State} (hn : 3 < n.toNat) :
    getProfile n s = s.refuse .range := by
  rw [getProfile, profileOf_none hn]

theorem getProfile_accepted {n : Byte} {p : ProfileId} {s : State} (hp : p.val = n.toNat) :
    getProfile n s = profileReply p s := by
  rw [getProfile, profileOf_val hp]

/-- Settles O17: a failed check leaves the profiles as they stood; with all passed the profile is
replaced, and the reply of both requests reads the profile then held. -/
theorem setProfileWritesAProfileWhole : Obligations.SetProfileWritesAProfileWhole := by
  intro n steps s hr reply
  simp only [Refuses, exec_setProfile n steps hr, exec_getProfile n hr]
  refine ⟨fun hmode => ?_, fun hmode hn => ?_, fun hmode hcount => ?_, fun hmode hbad => ?_,
    fun hmode p hp hfew hmany hsound => ?_, fun hn => ?_, fun p hp => ?_⟩
  · rw [setProfile_wrongMode hmode]
    rfl
  · rw [setProfile_unknownProfile hmode hn]
    rfl
  · rw [setProfile_range hmode (.inl hcount)]
    rfl
  · rw [setProfile_range hmode (.inr hbad)]
    rfl
  · rw [setProfile_accepted hmode hp hfew hmany hsound, profileReply, look_put_same]
    rfl
  · rw [getProfile_range hn]
    rfl
  · rw [getProfile_accepted hp]
    rfl

end Sys2Proof.Machine
end

section
/-! SUPPORT. The proofs of chapter 05, heater control. -/

namespace Sys2Proof.Machine

/-! ### The ramp (R75) -/

theorem rampStage_zero {target before : Int} {ramp : Nat} (hzero : ramp = 0) :
    rampStage target ramp before = target :=
  if_pos hzero

theorem rampStage_near {target before : Int} {ramp : Nat} (hnear : (target - before).natAbs ≤ ramp) :
    rampStage target ramp before = target := by
  rw [rampStage, if_pos hnear, ite_self]

theorem rampStage_up {target before : Int} {ramp : Nat} (hpos : 0 < ramp)
    (hfar : ramp < (target - before).natAbs) (hbelow : before < target) :
    rampStage target ramp before = before + ramp := by
  rw [rampStage, if_neg hpos.ne', if_neg hfar.not_ge, if_pos hbelow]

theorem rampStage_down {target before : Int} {ramp : Nat} (hpos : 0 < ramp)
    (hfar : ramp < (target - before).natAbs) (habove : target < before) :
    rampStage target ramp before = before - ramp := by
  rw [rampStage, if_neg hpos.ne', if_neg hfar.not_ge, if_neg habove.not_gt]

/-- The effective setpoint does not leave the span from its old value to the target: a step is taken only
where it is shorter than the distance. -/
theorem rampStage_between (target before : Int) (ramp : Nat) :
    min before target ≤ rampStage target ramp before
      ∧ rampStage target ramp before ≤ max before target := by
  obtain hzero | hpos := Nat.eq_zero_or_pos ramp
  · rw [rampStage_zero hzero]
    exact ⟨min_le_right .., le_max_right ..⟩
  obtain hnear | hfar := le_or_gt (target - before).natAbs ramp
  · rw [rampStage_near hnear]
    exact ⟨min_le_right .., le_max_right ..⟩
  obtain hbelow | habove : before < target ∨ target < before := by omega
  · rw [rampStage_up hpos hfar hbelow]
    omega
  · rw [rampStage_down hpos hfar habove]
    omega

/-! ### The error and the proportional term (R76) -/

theorem errorStage_range (e t : Int) : -1600 ≤ errorStage e t ∧ errorStage e t ≤ 1600 :=
  ⟨le_clampInt (by decide), clampInt_le (by decide)⟩

/-- Truncation is toward zero, so the size of the term is the rounded-down size of the product. -/
theorem proportional_natAbs (kp : Nat) (error : Int) :
    (proportional kp error).natAbs = kp * error.natAbs / 16 := by
  rw [proportional, Int.natAbs_tdiv, Int.natAbs_mul]
  rfl

theorem proportional_range {kp : Nat} {error : Int} (hkp : kp ≤ 255) (hlo : -1600 ≤ error)
    (hhi : error ≤ 1600) : -25500 ≤ proportional kp error ∧ proportional kp error ≤ 25500 := by
  have hproduct : kp * error.natAbs ≤ 255 * 1600 := Nat.mul_le_mul hkp (by omega)
  have hsize := proportional_natAbs kp error
  omega

/-! ### The candidate integrator and the outputs (R77) -/

theorem clampInt_zero_toNat {hi : Int} (h : 0 ≤ hi) (x : Int) :
    ((clampInt 0 hi x).toNat : Int) = clampInt 0 hi x :=
  Int.toNat_of_nonneg (le_clampInt h)

theorem candidate_cast (integrator ki : Nat) (error : Int) :
    (candidate integrator ki error : Int) = clampInt 0 256000 (integrator + ki * error) :=
  clampInt_zero_toNat (by decide) _

theorem candidate_le (integrator ki : Nat) (error : Int) : candidate integrator ki error ≤ 256000 := by
  have hclamp : (candidate integrator ki error : Int) ≤ 256000 :=
    candidate_cast integrator ki error ▸ clampInt_le (by decide)
  exact_mod_cast hclamp

theorem outputOf_eq (p : Int) (integrator : Nat) : outputOf p integrator = p + (integrator : Int) / 256 := by
  rw [outputOf, Int.natCast_ediv]
  rfl

/-! ### Conditional integration and the demand (R78, R79) -/

theorem refuses_iff {output error : Int} :
    refuses output error = true ↔ (1000 < output ∧ 0 < error) ∨ (output < 0 ∧ error < 0) := by
  rw [refuses, Bool.or_eq_true, decide_eq_true_iff, decide_eq_true_iff]

/-- The integrator is the old one or the candidate, as R78 decides on the candidate output. -/
theorem controlStage_integrator (integrator kp ki : Nat) (error : Int) :
    (controlStage integrator kp ki error).1
      = if refuses (outputOf (proportional kp error) (candidate integrator ki error)) error then integrator
        else candidate integrator ki error :=
  rfl

/-- The demand is the clamped output for the integrator that stage 8 leaves. -/
theorem controlStage_demand (integrator kp ki : Nat) (error : Int) :
    ((controlStage integrator kp ki error).2 : Int)
      = clampInt 0 1000 (proportional kp error + ((controlStage integrator kp ki error).1 : Int) / 256) := by
  rw [← outputOf_eq]
  exact clampInt_zero_toNat (by decide) _

theorem controlStage_integrator_le {integrator : Nat} (kp ki : Nat) (error : Int)
    (hi : integrator ≤ 256000) : (controlStage integrator kp ki error).1 ≤ 256000 := by
  rw [controlStage_integrator]
  split
  · exact hi
  · exact candidate_le ..

theorem controlStage_demand_le (integrator kp ki : Nat) (error : Int) :
    (controlStage integrator kp ki error).2 ≤ 1000 := by
  have hclamp : ((controlStage integrator kp ki error).2 : Int) ≤ 1000 :=
    controlStage_demand integrator kp ki error ▸ clampInt_le (by decide)
  exact_mod_cast hclamp

/-- Settles O32: stage by stage; the demand follows from the integrator that stage 8 leaves. -/
theorem theRampAndControlStages : Obligations.TheRampAndControlStages := by
  intro target before t ramp integrator kp ki hkp _ hi e err p cand out
  obtain ⟨hstart, hend⟩ := rampStage_between target before ramp
  obtain ⟨herrLo, herrHi⟩ := errorStage_range e t
  obtain ⟨hpLo, hpHi⟩ := proportional_range hkp herrLo herrHi
  have hcand : (candidate integrator ki err : Int) = cand := candidate_cast integrator ki err
  have hcandLo : 0 ≤ cand := le_clampInt (by decide)
  have hcandHi : cand ≤ 256000 := clampInt_le (by decide)
  have hdemand : (out.2 : Int) = clampInt 0 1000 (p + (out.1 : Int) / 256) :=
    controlStage_demand integrator kp ki err
  have hrefuses : refuses (outputOf p (candidate integrator ki err)) err = true ↔
      (1000 < p + cand / 256 ∧ 0 < err) ∨ (p + cand / 256 < 0 ∧ err < 0) := by
    rw [refuses_iff, outputOf_eq, hcand]
  refine ⟨rampStage_zero, rampStage_near, rampStage_up, rampStage_down, hstart, hend,
    rfl, herrLo, herrHi, rfl, hpLo, hpHi, by omega, by omega,
    controlStage_integrator_le kp ki err hi, controlStage_demand_le integrator kp ki err,
    fun hrefused => ?_, fun htaken => ?_⟩
  · have hkept : out.1 = integrator := if_pos (hrefuses.mpr hrefused)
    exact ⟨hkept, hkept ▸ hdemand⟩
  · have hnew : (out.1 : Int) = cand :=
      (congrArg Nat.cast (if_neg (mt hrefuses.mp htaken))).trans hcand
    exact ⟨hnew, hnew ▸ hdemand⟩

end Sys2Proof.Machine
end

section
/-! SUPPORT. The proofs of chapter 06, supply allotment. -/

namespace Sys2Proof.Machine

/-! ### What a rail contributes (R89) -/

theorem railShare_unpowered {s : State} {k : Socket} {r : RailKind}
    (h : (s.rail k r).state = .off ∨ (s.rail k r).state = .waitGrant) : railShare s k r = 0 := by
  unfold railShare
  rcases h with h | h <;> rw [h]

theorem railShare_rising {s : State} {k : Socket} {r : RailKind}
    (h : (s.rail k r).state = .rising) : railShare s k r = (s.brd.rail.get r).maxPower := by
  rw [railShare, h]

/-- Until a sample has come in its state, a rail counts with its declared maximum power. -/
theorem railShare_unmeasured {s : State} {k : Socket} {r : RailKind}
    (h : (s.rail k r).state = .on ∨ (s.rail k r).state = .falling)
    (hmark : (look s.supply.measured k).get r = false) :
    railShare s k r = (s.brd.rail.get r).maxPower := by
  unfold railShare
  rcases h with h | h <;> rw [h, hmark]

/-- A measured rail counts with its rail power (R45). -/
theorem railShare_measured {s : State} {k : Socket} {r : RailKind} {x : Sample}
    (h : (s.rail k r).state = .on ∨ (s.rail k r).state = .falling)
    (hmark : (look s.supply.measured k).get r = true)
    (hfull : (look s.scan.current k).get r = some x) :
    railShare s k r = s.effSetpoint k r * (x.value.getD 0).toNat / 10000 := by
  unfold railShare
  rcases h with h | h <;> rw [h, hmark, hfull]

/-! ### Demands and draws (R91, R93) -/

/-- The demand of a counted socket, in the words of R91. -/
theorem demandOf_eq (s : State) (k : Socket) :
    demandOf s k =
      if s.live k = true ∧ s.validTemp k ≠ none then (look s.heat k).demand else 0 := by
  unfold demandOf countedHeat
  simp only [Bool.and_eq_true, Option.isSome_iff_ne_none]

@[simp] theorem dutyAt_zero (s : State) (k : Socket) : dutyAt s 0 k = 0 := by
  rw [dutyAt, Nat.mul_zero, Nat.zero_div]

/-- Factor 1024 gives the demand itself. -/
@[simp] theorem dutyAt_full (s : State) (k : Socket) : dutyAt s 1024 k = demandOf s k :=
  Nat.mul_div_cancel _ (by decide)

theorem appliedDraw_full (s : State) : appliedDraw s 1024 = totalDraw s :=
  sumSockets_congr fun k => congrArg (drawAt s k) (dutyAt_full s k)

/-! ### The three cases of the curtail factor (R92, R93) -/

theorem curtailFactor_usedUp (s : State) {allowance : Int} (h : allowance ≤ 0) :
    curtailFactor s allowance = 0 :=
  if_pos h

theorem curtailFactor_enough {s : State} {allowance : Int} (hpos : 0 < allowance)
    (h : (totalDraw s : Int) ≤ allowance) : curtailFactor s allowance = 1024 := by
  rw [curtailFactor, if_neg (by omega), if_pos h]

theorem curtailFactor_short {s : State} {allowance : Int} (hpos : 0 < allowance)
    (h : allowance < totalDraw s) :
    curtailFactor s allowance
      = largestFactor s allowance.toNat (allowance.toNat * 1024 / totalDraw s) := by
  rw [curtailFactor, if_neg (by omega), if_neg (by omega)]

/-- In curtailment the factor is the largest up to R93's start that keeps the draws within the
allowance. -/
theorem curtailFactor_largest {s : State} {allowance : Int} (hpos : 0 < allowance)
    (h : allowance < totalDraw s) :
    curtailFactor s allowance ≤ allowance.toNat * 1024 / totalDraw s
      ∧ (appliedDraw s (curtailFactor s allowance) : Int) ≤ allowance
      ∧ ∀ f, curtailFactor s allowance < f → f ≤ allowance.toNat * 1024 / totalDraw s →
          allowance < appliedDraw s f := by
  rw [curtailFactor_short hpos h]
  obtain ⟨hstart, hfits, hlargest⟩ :=
    largestFactor_spec s allowance.toNat (allowance.toNat * 1024 / totalDraw s)
  refine ⟨hstart, by omega, fun f habove hf => ?_⟩
  have hpasses := hlargest f habove hf
  omega

/-- Whatever the case, the applied draws never pass the allowance, or 0 where it is negative. -/
theorem appliedDraw_curtailFactor_le (s : State) (allowance : Int) :
    (appliedDraw s (curtailFactor s allowance) : Int) ≤ max allowance 0 := by
  rcases le_or_gt allowance 0 with hused | hpos
  · rw [curtailFactor_usedUp s hused, appliedDraw_zero]
    exact le_max_right _ _
  · refine le_trans ?_ (le_max_left _ _)
    rcases le_or_gt (totalDraw s : Int) allowance with henough | hshort
    · rw [curtailFactor_enough hpos henough, appliedDraw_full]
      exact henough
    · obtain ⟨-, hfits, -⟩ := curtailFactor_largest hpos hshort
      exact hfits

/-! ### What the allotment writes (R89, R91 to R94) -/

theorem allot_contribution (s : State) (k : Socket) (r : RailKind) :
    (look (allot s).supply.contribution k).get r = railShare s k r := by
  rw [← contributionOf_share]
  cases r <;> exact congrArg (PerRail.get · _) (look_tab16 _ k)

/-- The allotment is the sum of the contributions it records. -/
theorem allot_railAllotment (s : State) :
    (allot s).supply.railAllotment = sumSockets fun k =>
      (look (allot s).supply.contribution k).core + (look (allot s).supply.contribution k).aux := by
  have hrecorded : (allot s).supply.railAllotment = railTotal s := rfl
  rw [hrecorded, railTotal]
  refine sumSockets_congr fun k => ?_
  rw [contributionOf_share, contributionOf_share]
  exact (socketShare_allot s k).symm

/-- The allowance at an allotment (R91). -/
def allowanceOf (s : State) : Int := (s.bulkLimit : Int) - (allot s).supply.railAllotment

theorem allot_allowance (s : State) : (allot s).supply.allowance = some (allowanceOf s) := rfl

theorem allot_curtail (s : State) :
    (allot s).supply.curtail = curtailFactor s (allowanceOf s) := rfl

theorem allot_applied (s : State) (k : Socket) :
    look (allot s).supply.applied k = dutyAt s (curtailFactor s (allowanceOf s)) k :=
  look_tab16 _ k

/-- The flag marks a socket that demands heat at an allotment whose allowance is used up or short. -/
theorem allot_curtailed (s : State) (k : Socket) :
    look (allot s).supply.curtailed k
      = ((decide (allowanceOf s ≤ 0) || decide (allowanceOf s < totalDraw s))
        && decide (0 < demandOf s k)) :=
  look_tab16 _ k

/-- The applied draws that the allotment leaves are those of its factor. -/
theorem allot_appliedDraw (s : State) :
    (sumSockets fun k => drawAt s k (look (allot s).supply.applied k))
      = appliedDraw s (curtailFactor s (allowanceOf s)) :=
  sumSockets_congr fun k => congrArg (drawAt s k) (allot_applied s k)

theorem allot_usedUp {s : State} (h : allowanceOf s ≤ 0) :
    (allot s).supply.curtail = 0 ∧ ∀ k, look (allot s).supply.applied k = 0
      ∧ look (allot s).supply.curtailed k = decide (0 < demandOf s k) := by
  refine ⟨curtailFactor_usedUp s h, fun k => ⟨?_, ?_⟩⟩
  · rw [allot_applied, curtailFactor_usedUp s h, dutyAt_zero]
  · simp [allot_curtailed, h]

theorem allot_enough {s : State} (hpos : 0 < allowanceOf s)
    (h : (totalDraw s : Int) ≤ allowanceOf s) :
    (allot s).supply.curtail = 1024 ∧ ∀ k, look (allot s).supply.applied k = demandOf s k
      ∧ look (allot s).supply.curtailed k = false := by
  refine ⟨curtailFactor_enough hpos h, fun k => ⟨?_, ?_⟩⟩
  · rw [allot_applied, curtailFactor_enough hpos h, dutyAt_full]
  · simp [allot_curtailed, not_le.mpr hpos, not_lt.mpr h]

theorem allot_short_curtailed {s : State} (h : allowanceOf s < totalDraw s) (k : Socket) :
    look (allot s).supply.curtailed k = decide (0 < demandOf s k) := by
  simp [allot_curtailed, h]

/-- Settles O38: the contributions are R89's shares; R92's two cases give the factors 0 and 1024, and R93's
search gives the largest factor that fits, so the draws fit in every case. -/
theorem heaterDrawsStayWithinTheAllowance : Obligations.HeaterDrawsStayWithinTheAllowance := by
  intro s t rating demand left total drawn first
  have hdemand : demand = demandOf s := funext fun k => (demandOf_eq s k).symm
  have htotal : total = totalDraw s :=
    sumSockets_congr fun k => congrArg (rating k * · / 1000) (congrFun hdemand k)
  have hdrawn : drawn = appliedDraw s := funext fun f =>
    sumSockets_congr fun k =>
      congrArg (fun d => rating k * (d * f / 1024) / 1000) (congrFun hdemand k)
  have hfirst : first = left.toNat * 1024 / totalDraw s := congrArg (left.toNat * 1024 / ·) htotal
  rw [hdemand, hdrawn, hfirst, htotal]
  refine ⟨fun k r => ?_, allot_railAllotment s, rfl, allot_allowance s, rfl, ?_, allot_usedUp,
    allot_enough, fun hpos hshort => ?_, rfl⟩
  · intro share declared measured
    have hshare : share = railShare s k r := allot_contribution s k r
    rw [hshare]
    exact ⟨railShare_unpowered, railShare_rising, fun hpowered =>
      ⟨railShare_unmeasured hpowered, fun x => railShare_measured hpowered⟩⟩
  · exact (congrArg Nat.cast (allot_appliedDraw s)).trans_le (appliedDraw_curtailFactor_le s left)
  · obtain ⟨hstart, hfits, hlargest⟩ := curtailFactor_largest hpos hshort
    exact ⟨hstart, hfits, hlargest, fun k => ⟨allot_applied s k, allot_short_curtailed hshort k⟩⟩

end Sys2Proof.Machine
end

section
/-! SUPPORT. The proofs of chapter 09, fail handling and the fail log. -/

namespace Sys2Proof.Machine

/-! ### Codes that name nothing (R132, R133) -/

theorem failKindOf_none {b : Byte} (h : 7 < b.toNat) : failKindOf b = none := by
  obtain ⟨m, hm⟩ : ∃ m, b.toNat = m + 8 := ⟨b.toNat - 8, by omega⟩
  rw [failKindOf, hm]
  rfl

theorem actionOf_none {b : Byte} (h : 2 < b.toNat) : actionOf b = none := by
  obtain ⟨m, hm⟩ : ∃ m, b.toNat = m + 3 := ⟨b.toNat - 3, by omega⟩
  rw [actionOf, hm]
  rfl

/-! ### SetPolicy's adjustments (R134) -/

/-- A kind held to the stricter form: COUNT is raised to HOLD, and the threshold is 1 whatever was sent. -/
theorem adjustPolicy_strict {f : FailKind} (h : f = .overcurrent ∨ f = .overtemp) (a : PolicyAction)
    (threshold bin : Nat) :
    adjustPolicy f ⟨a, threshold, bin⟩ = ⟨if a = .count then .hold else a, 1, bin⟩ := by
  rcases h with rfl | rfl <;> cases a <;> rfl

theorem adjustPolicy_other {f : FailKind} (h : ¬(f = .overcurrent ∨ f = .overtemp))
    (e : PolicyEntry) : adjustPolicy f e = e := by
  cases f with
  | overcurrent => exact absurd (.inl rfl) h
  | overtemp => exact absurd (.inr rfl) h
  | undercurrent | regFault | runaway | sensor | activity | dutAlarm => rfl

/-! ### SetPolicy's checks and effect (R134) -/

/-- The effect of an accepted SetPolicy: the entry is written, and the reply gives it. -/
def writePolicy (f : FailKind) (e : PolicyEntry) (s : State) : State :=
  { s with policy := put s.policy (kindIndex f) e }.reply .ok (putPolicy e)

theorem exec_setPolicy (kind action threshold bin : Byte) {s : State} (hr : s.resetting = none) :
    exec (.setPolicy kind action threshold bin) s = .next (setPolicy kind action threshold bin s) :=
  outsideReset_run (setPolicy kind action threshold bin) hr

section
variable {kind action threshold bin : Byte} {s : State}

theorem setPolicy_wrongMode (hmode : s.mode ≠ .config) :
    setPolicy kind action threshold bin s = s.refuse .wrongMode := by
  rw [setPolicy, if_pos hmode]

/-- Check 2: the kind code names no kind. -/
theorem setPolicy_unknownKind (hmode : s.mode = .config) (hkind : failKindOf kind = none) :
    setPolicy kind action threshold bin s = s.refuse .range := by
  rw [setPolicy, if_neg (not_not_intro hmode), hkind]

/-- Check 3: the action code names no action, whatever the kind code names. -/
theorem setPolicy_unknownAction (hmode : s.mode = .config) (haction : actionOf action = none) :
    setPolicy kind action threshold bin s = s.refuse .range := by
  rw [setPolicy, if_neg (not_not_intro hmode), haction]
  cases failKindOf kind <;> rfl

/-- In CONFIG, with a kind and an action named, the threshold and the bin decide. -/
theorem setPolicy_named {f : FailKind} {a : PolicyAction} (hmode : s.mode = .config)
    (hkind : failKindOf kind = some f) (haction : actionOf action = some a) :
    setPolicy kind action threshold bin s =
      if threshold.toNat = 0 then s.refuse .range
      else if bin.toNat < 2 ∨ 15 < bin.toNat then s.refuse .range
      else writePolicy f (adjustPolicy f ⟨a, threshold.toNat, bin.toNat⟩) s := by
  rw [setPolicy, if_neg (not_not_intro hmode), hkind, haction]
  rfl

/-- Checks 2 to 5 share the result RANGE, so a bad threshold or bin is refused with it whether or not the
kind and the action are named. -/
theorem setPolicy_badNumber (hmode : s.mode = .config)
    (hbad : threshold.toNat = 0 ∨ bin.toNat < 2 ∨ 15 < bin.toNat) :
    setPolicy kind action threshold bin s = s.refuse .range := by
  cases hkind : failKindOf kind with
  | none => exact setPolicy_unknownKind hmode hkind
  | some f =>
    cases haction : actionOf action with
    | none => exact setPolicy_unknownAction hmode haction
    | some a =>
      rw [setPolicy_named hmode hkind haction]
      rcases hbad with hzero | hbin
      · rw [if_pos hzero]
      · rw [if_pos hbin, ite_self]

theorem setPolicy_range (hmode : s.mode = .config)
    (hbad : 7 < kind.toNat ∨ 2 < action.toNat ∨ threshold.toNat = 0 ∨ bin.toNat < 2
      ∨ 15 < bin.toNat) : setPolicy kind action threshold bin s = s.refuse .range := by
  rcases hbad with hkind | haction | hnumber
  · exact setPolicy_unknownKind hmode (failKindOf_none hkind)
  · exact setPolicy_unknownAction hmode (actionOf_none haction)
  · exact setPolicy_badNumber hmode hnumber

/-- With every check passed the adjusted entry is written. -/
theorem setPolicy_accepted {f : FailKind} {a : PolicyAction} (hmode : s.mode = .config)
    (hkind : (kindIndex f).val = kind.toNat) (haction : a.code = action.toNat)
    (hthreshold : 1 ≤ threshold.toNat) (hlo : 2 ≤ bin.toNat) (hhi : bin.toNat ≤ 15) :
    setPolicy kind action threshold bin s
      = writePolicy f (adjustPolicy f ⟨a, threshold.toNat, bin.toNat⟩) s := by
  rw [setPolicy_named hmode (failKindOf_code hkind) (actionOf_code haction), if_neg (by omega),
    if_neg (by omega)]

end

/-! ### GetPolicy (R135) -/

theorem exec_getPolicy {s : State} (hr : s.resetting = none) :
    exec .getPolicy s = .next (getPolicy s) :=
  outsideReset_run getPolicy hr

/-- The entries of a table in rising order are those that `look` reads. -/
theorem toList_eq_ofFn_look {α : Type} {n : Nat} (v : Vector α n) : v.toList = List.ofFn (look v) := by
  refine List.ext_getElem (by simp) fun i _ _ => ?_
  rw [Vector.getElem_toList, List.getElem_ofFn]
  rfl

/-- GetPolicy sends the entries in kind-code order. -/
theorem getPolicy_eq (s : State) :
    getPolicy s = s.reply .ok (List.ofFn fun i => putPolicy (look s.policy i)).flatten := by
  rw [getPolicy, toList_eq_ofFn_look, List.flatMap_def, List.map_ofFn]
  rfl

/-- Settles O51: a failed check leaves the table as it stood; with all passed the entry written and
replied is the one sent, after the adjustments of the two stricter kinds. -/
theorem setPolicyKeepsTheStricterForm : Obligations.SetPolicyKeepsTheStricterForm := by
  intro kind action threshold bin s hr refused
  simp only [refused, Refuses, exec_setPolicy kind action threshold bin hr, exec_getPolicy hr]
  refine ⟨fun hmode => ?_, fun hmode hbad => ?_,
    fun hmode f a hkind haction hthreshold hlo hhi =>
      ⟨adjustPolicy f ⟨a, threshold.toNat, bin.toNat⟩, fun hstrict => ?_, fun hother => ?_, ?_⟩, ?_⟩
  · rw [setPolicy_wrongMode hmode]
    rfl
  · rw [setPolicy_range hmode hbad]
    rfl
  · exact adjustPolicy_strict hstrict a threshold.toNat bin.toNat
  · exact adjustPolicy_other hother _
  · rw [setPolicy_accepted hmode hkind haction hthreshold hlo hhi]
    rfl
  · rw [getPolicy_eq]
    rfl

/-! ### ReadFails (R144) -/

theorem exec_readFails (n : Byte) {s : State} (hr : s.resetting = none) :
    exec (.readFails n) s = .next (readFails n s) :=
  outsideReset_run (readFails n) hr

theorem readFails_range {n : Byte} {s : State} (h : n.toNat = 0 ∨ 8 < n.toNat) :
    readFails n s = s.refuse .range := by
  rw [readFails, if_pos h]

/-- With a number in range the log is cut after its first `n` entries, or after its last one where it
holds fewer. -/
theorem readFails_accepted {n : Byte} {s : State} (hlo : 1 ≤ n.toNat) (hhi : n.toNat ≤ 8) :
    readFails n s =
      { s with log := s.log.drop (min n.toNat s.log.length) }.reply .ok
        (put1 (min n.toNat s.log.length)
          ++ (s.log.take (min n.toNat s.log.length)).flatMap putEntry
          ++ put1 (s.log.length - min n.toNat s.log.length)) := by
  have htake : s.log.take n.toNat = s.log.take (min n.toNat s.log.length) := List.take_eq_take_min
  have hdrop : s.log.drop n.toNat = s.log.drop (min n.toNat s.log.length) := List.drop_eq_drop_min
  have hfew : min n.toNat s.log.length ≤ s.log.length := min_le_right ..
  rw [readFails, if_neg (by omega)]
  dsimp only
  rw [htake, hdrop, List.length_take_of_le hfew, List.length_drop]

/-- Settles O50: a number out of range is refused; any other cuts the log, and the reply carries the
part removed. -/
theorem readFailsTakesTheOldestEntries : Obligations.ReadFailsTakesTheOldestEntries := by
  intro n s hr
  rw [Refuses, exec_readFails n hr]
  refine ⟨fun hrange => ?_, fun hlo hhi => ?_⟩
  · rw [readFails_range hrange]
    rfl
  · rw [readFails_accepted hlo hhi]
    rfl

end Sys2Proof.Machine
end

section
/-! SUPPORT. What a command does outside resets, as one function of the state (`effectOf`), and what a step
can do in terms of it. -/

namespace Sys2Proof.Machine

/-! ### The effect of a command -/

/-- A command of R163, which acts during a reset: a reset cause or the end of a reset. -/
def isResetCommand : Instr → Bool
  | .powerOnReset | .resetNAsserted | .clockLoss | .resetEnd _ => true
  | _ => false

/-- The effect of a command outside resets; the commands of R163 are left to `exec`. -/
def effectOf : Instr → State → State
  | .identify => identify
  | .getBoardStatus => getBoardStatus
  | .attach => attach
  | .setBoardField code index value => setBoardField code index value
  | .getBoardField code index => getBoardField code index
  | .setProfile profile steps => setProfile profile steps
  | .getProfile profile => getProfile profile
  | .setPolicy kind action threshold bin => setPolicy kind action threshold bin
  | .getPolicy => getPolicy
  | .setSocketParams socket values => setSocketParams socket values
  | .getSocket socket => getSocket socket
  | .setSlot slot values => setSlot slot values
  | .getSlot slot => getSlot slot
  | .sendSlot slot => sendSlot slot
  | .abortSlot slot => abortSlot slot
  | .setTimers interval0 interval1 => setTimers interval0 interval1
  | .start => start
  | .pause broadcast => pause broadcast
  | .resume broadcast => resume broadcast
  | .shutdown => shutdown
  | .quench broadcast => quench broadcast
  | .clear => clear
  | .startSocket socket => startSocket socket
  | .stopSocket socket => stopSocket socket
  | .retrySocket socket => retrySocket socket
  | .clearSocket socket => clearSocket socket
  | .readFails n => readFails n
  | .setAlarmEnables latch report => setAlarmEnables latch report
  | .readAlarms clearSet => readAlarms clearSet
  | .lineByte item => takeLine item
  | .gapTimerExpiry => gapExpires
  | .replyEnd => replyEnds
  | .brdPresentAsserted => boardSeated
  | .brdPresentDeasserted => boardRemoved
  | .attachReadSuccess image mon alm => readSucceeds image mon alm
  | .attachReadFailure image => readFailsCheck image
  | .attachNoAnswer => failRead .noAnswer
  | .attachTimeout => failRead .noAnswer
  | .roundBoundary => takeBoundary
  | .channelArrival code => takeCode code.toNat
  | .riseEnd socket rail => endRise socket rail
  | .fallEnd socket rail => endFall socket rail
  | .dwellEnd socket => endDwell socket
  | .rfltNLevel socket asserted => takeRflt socket asserted
  | .upProfileComplete socket => completeUp socket
  | .downProfileComplete socket => completeDown socket
  | .stopOrder order => takeStopOrder order
  | .carrierPeriodStart => startPeriod
  | .dispatchTimerExpiry timer => expireTimer timer
  | .burstEnd dlvChk => endBurst dlvChk
  | .monitorEdge socket level => takeMonitor socket level
  | .windowClose socket => closeWindow socket
  | .alarmLevelTaken socket level => takeAlarm socket level
  | .failTaken fail => takeFailMessage fail
  | .tick => takeTick
  | .holdExpiry socket => expireHold socket
  | .ovenOkLevel asserted => takeOven asserted
  | .heaterOnTimeEnd socket => endOnTime socket
  | .powerOnReset | .resetNAsserted | .clockLoss | .resetEnd _ => id

/-- Every command but those of R163 waits out a reset (log 14). -/
theorem exec_eq_outsideReset {c : Instr} (hc : isResetCommand c = false) (s : State) :
    exec c s = outsideReset s (effectOf c) := by
  cases c with
  | powerOnReset | resetNAsserted | clockLoss | resetEnd pins => cases hc
  | _ => rfl

/-- Outside resets a command answers its effect. -/
theorem exec_effect (c : Instr) {s : State} (hc : isResetCommand c = false) (hr : s.resetting = none) :
    exec c s = .next (effectOf c s) := by
  rw [exec_eq_outsideReset hc, outsideReset_run _ hr]

/-- What a command can answer: the state as it was, the begin or the end of a reset, or its effect. -/
theorem exec_cases (c : Instr) (s : State) :
    exec c s = .next s
      ∨ (∃ add, exec c s = .next (beginReset add s))
      ∨ (∃ cause pins, exec c s = .next (.afterReset cause pins s.draws s.pending))
      ∨ (isResetCommand c = false ∧ s.resetting = none ∧ exec c s = .next (effectOf c s)) := by
  cases hc : isResetCommand c with
  | false =>
    cases hr : s.resetting with
    | none => exact .inr (.inr (.inr ⟨rfl, rfl, exec_effect c hc hr⟩))
    | some met =>
      refine .inl ?_
      rw [exec_eq_outsideReset hc, outsideReset_held _ (by rw [hr]; exact Option.some_ne_none met)]
  | true =>
    cases c with
    | powerOnReset => exact .inr (.inl ⟨_, rfl⟩)
    | resetNAsserted => exact .inr (.inl ⟨_, rfl⟩)
    | clockLoss => exact .inr (.inl ⟨_, rfl⟩)
    | resetEnd pins =>
      cases hr : s.resetting with
      | none =>
        refine .inl ?_
        show execResetEnd pins s = _
        unfold execResetEnd
        rw [hr]
      | some met =>
        refine .inr (.inr (.inl ⟨restartCause met, pins, ?_⟩))
        show execResetEnd pins s = _
        unfold execResetEnd
        rw [hr]
    | _ => cases hc

/-! ### One step -/

/-- Settles O1: a step with a command waiting is by definition `exec` of the front command. -/
theorem stepTakesTheFrontCommand : Obligations.StepTakesTheFrontCommand := by
  intro c rest s hp
  rw [step, hp]

/-- On an empty queue a step is the part's own. -/
theorem step_alone {s : State} (hp : s.pending = []) : step s = stepAlone s := by
  rw [step, hp]

/-- With nothing due the step is the passing of a microsecond. -/
theorem stepAlone_idle {s : State} (hr : s.resetting = none) (hd : dueEvents s = []) :
    stepAlone s = .next (passTime s) := by
  rw [stepAlone, hr]
  dsimp only
  rw [hd]

/-- With an event due the step is that of the event chosen. -/
theorem stepAlone_due {s : State} {e : Instr} {rest : List Instr} (hr : s.resetting = none)
    (hd : dueEvents s = e :: rest) :
    stepAlone s = exec (chooseEvent s.draws e rest) (drawnFor rest s) := by
  rw [stepAlone, hr]
  dsimp only
  rw [hd]

/-- Settles O2: by the reset, the list of due events and, with none due, the inputs that are awaited. -/
theorem anIdlePartTakesADueEventOrLetsTimePass :
    Obligations.AnIdlePartTakesADueEventOrLetsTimePass := by
  intro s hp
  rw [step_alone hp]
  refine ⟨fun hr => ?_, fun hr hd ha => ?_, fun hr hd ha => ?_, fun hr e hd => ?_, fun hr hd => ?_⟩
  · obtain ⟨met, hmet⟩ := Option.ne_none_iff_exists'.mp hr
    rw [stepAlone, hmet]
  · rw [stepAlone_idle hr hd, passTime, ha, if_neg Bool.false_ne_true]
  · rw [stepAlone_idle hr hd, passTime, if_pos ha]
  · rw [stepAlone_due hr hd]
    rfl
  · obtain ⟨e, f, rest, hd'⟩ : ∃ e f rest, dueEvents s = e :: f :: rest := by
      match h : dueEvents s with
      | [] | [_] => simp [h] at hd
      | e :: f :: rest => exact ⟨e, f, rest, rfl⟩
    refine ⟨chooseEvent s.draws e (f :: rest), ?_, ?_⟩
    · rw [hd']
      exact dueEvents_choice _ _ _
    · rw [stepAlone_due hr hd']
      rfl

end Sys2Proof.Machine
end

section
/-! SUPPORT. The invariants of the part read little of its state. `view` is that little; `Move` lists the kinds
of change a command is made of, each with what the invariants need of it; and each invariant is kept by every
kind, once. -/

namespace Sys2Proof.Machine

/-! ### What the invariants read -/

/-- STARTING, STRESSING or STOPPING, of a state alone. -/
def busyIn : SocketState → Bool
  | .starting | .stressing | .stopping => true
  | .empty | .idle | .held | .retired | .done => false

/-- STARTING or STRESSING, of a state alone. -/
def liveIn : SocketState → Bool
  | .starting | .stressing => true
  | .empty | .idle | .stopping | .held | .retired | .done => false

theorem busy_eq (s : State) (k : Socket) : s.busy k = busyIn (s.sock k).state := by
  unfold State.busy busyIn
  cases (s.sock k).state <;> rfl

theorem live_eq (s : State) (k : Socket) : s.live k = liveIn (s.sock k).state := by
  unfold State.live liveIn
  cases (s.sock k).state <;> rfl

theorem busyIn_of_live {x : SocketState} (h : liveIn x = true) : busyIn x = true := by
  cases x <;> first | rfl | cases h

/-- Both rails OFF and no run (R47, R52). -/
def AtRest (k : Socket) (s : State) : Prop := bothOff k s = true ∧ s.run k = none

/-- No demand, no duty and no heater output (R71). -/
def Cold (k : Socket) (s : State) : Prop :=
  (look s.heat k).demand = 0 ∧ look s.supply.applied k = 0 ∧ look s.active k = 0
    ∧ look s.heaterOn k = false

/-- What the invariants, the accounts of credit and the queue read of a state. -/
@[ext] structure View where
  pending : List Instr
  mode : Mode
  attach : AttachState
  limit : Nat
  state : Socket → SocketState
  credit : Socket → Nat
  atRest : Socket → Prop
  rising : Nat
  cold : Socket → Prop
  windowed : Socket → Prop
  busOk : Prop
  logOk : Prop
  policyOk : Prop

/-- The view of a state. -/
def view (s : State) : View where
  pending := s.pending
  mode := s.mode
  attach := s.board.attach
  limit := s.board.host.inrushLimit
  state k := (s.sock k).state
  credit k := (s.sock k).credit
  atRest k := AtRest k s
  rising := s.risingCount
  cold k := Cold k s
  windowed k := windowOf k s ≠ none
  busOk := BusOk s
  logOk := LogOk s
  policyOk := PolicyOk s

/-! ### The kinds of change -/

/-- The kinds of change a command is made of. Each constructor changes a part of the view and carries what the
invariants need of the change. -/
inductive Move : View → View → Prop
  /-- rails and runs change, but not those of a socket at rest outside its runs -/
  | rails {v : View} (p : Socket → Prop) (n : Nat)
      (hrest : ∀ k, busyIn (v.state k) = false → v.atRest k → p k)
      (hrising : v.rising ≤ v.limit → n ≤ v.limit) : Move v { v with atRest := p, rising := n }
  /-- demands, duties and heater outputs change, but not those of a cold socket that is not live -/
  | heat {v : View} (p : Socket → Prop) (hcold : ∀ k, liveIn (v.state k) = false → v.cold k → p k) :
      Move v { v with cold := p }
  /-- windows change, and open for STRESSING sockets alone -/
  | windows {v : View} (p : Socket → Prop) (hopen : ∀ k, p k → v.windowed k ∨ v.state k = .stressing) :
      Move v { v with windowed := p }
  | bus {v : View} (p : Prop) (h : v.busOk → p) : Move v { v with busOk := p }
  | log {v : View} (p : Prop) (h : v.logOk → p) : Move v { v with logOk := p }
  | policy {v : View} (p : Prop) (h : v.policyOk → p) : Move v { v with policyOk := p }
  /-- credits are cleared -/
  | clears {v : View} (c : Socket → Nat) (h : ∀ k, c k = v.credit k ∨ c k = 0) :
      Move v { v with credit := c }
  /-- sockets enter STARTING in a running mode (R4) -/
  | begins {v : View} (x : Socket → SocketState) (hmode : runningMode v.mode = true)
      (h : ∀ k, x k = v.state k ∨ (busyIn (v.state k) = false ∧ x k = .starting)) :
      Move v { v with state := x }
  /-- STARTING sockets enter STRESSING (R5) -/
  | stresses {v : View} (x : Socket → SocketState)
      (h : ∀ k, x k = v.state k ∨ (v.state k = .starting ∧ x k = .stressing)) :
      Move v { v with state := x }
  /-- running sockets, cold by now and without a window, enter STOPPING (R7) -/
  | halts {v : View} (x : Socket → SocketState)
      (h : ∀ k, x k = v.state k
        ∨ (liveIn (v.state k) = true ∧ x k = .stopping ∧ v.cold k ∧ ¬v.windowed k)) :
      Move v { v with state := x }
  /-- sockets enter states outside runs, from such states, from STOPPING at rest (R9), or while no board is
  ATTACHED (R27) -/
  | settles {v : View} (x : Socket → SocketState)
      (h : ∀ k, x k = v.state k ∨ (busyIn (x k) = false
        ∧ (busyIn (v.state k) = false ∨ v.attach ≠ .attached ∨ (v.state k = .stopping ∧ v.atRest k)))) :
      Move v { v with state := x }
  /-- the mode changes between running modes, to one with the board ATTACHED, or with no socket running -/
  | mode {v : View} (m : Mode)
      (hbusy : ∀ k, busyIn (v.state k) = true → runningMode v.mode = true → runningMode m = true)
      (hattached : runningMode m = true → runningMode v.mode = true ∨ v.attach = .attached) :
      Move v { v with mode := m }
  /-- the attach state changes, and does not leave ATTACHED in a running mode -/
  | attach {v : View} (a : AttachState)
      (h : runningMode v.mode = true → v.attach = .attached → a = .attached) :
      Move v { v with attach := a }
  /-- the inrush limit is written, in CONFIG -/
  | limit {v : View} (n : Nat) (hmode : v.mode = .config) (hzero : (∀ k, v.atRest k) → v.rising = 0) :
      Move v { v with limit := n }
  /-- the entry to SAFE (R159), with the attach state that goes with it -/
  | safe {v : View} (a : AttachState) (x : Socket → SocketState) (rest cold windowed : Socket → Prop)
      (busOk : Prop) (hstate : ∀ k, busyIn (x k) = false) (hrest : ∀ k, rest k)
      (hcold : ∀ k, (liveIn (v.state k) = false → v.cold k) → cold k)
      (hwindow : ∀ k, windowed k → v.windowed k ∧ liveIn (v.state k) = false)
      (hbus : v.busOk → busOk) :
      Move v { v with
        mode := .safe, attach := a, state := x, atRest := rest, rising := 0, cold := cold
        windowed := windowed, busOk := busOk }

/-- A change made of any number of moves. -/
abbrev Moves : View → View → Prop := Relation.ReflTransGen Move

/-- `t` comes of `s` by moves. -/
def Leads (s t : State) : Prop := Moves (view s) (view t)

/-! ### The invariants of a view -/

/-- `RunOk` of a view. -/
def View.RunOk (v : View) : Prop :=
  (∀ k, busyIn (v.state k) = true → runningMode v.mode = true)
    ∧ (runningMode v.mode = true → v.attach = .attached)

/-- `RailsOk` of a view. -/
def View.RailsOk (v : View) : Prop := ∀ k, busyIn (v.state k) = false → v.atRest k

/-- `HeatOk` of a view. -/
def View.HeatOk (v : View) : Prop := ∀ k, liveIn (v.state k) = false → v.cold k

/-- `WindowOk` of a view. -/
def View.WindowOk (v : View) : Prop := ∀ k, v.windowed k → v.state k = .stressing

/-- `RisingOk` of a view. -/
def View.RisingOk (v : View) : Prop := v.rising ≤ v.limit

theorem runOk_iff (s : State) : RunOk s ↔ (view s).RunOk := by
  simp only [RunOk, View.RunOk, view, busy_eq]

theorem railsOk_iff (s : State) : RailsOk s ↔ (view s).RailsOk := by
  simp only [RailsOk, View.RailsOk, view, busy_eq, AtRest]

theorem heatOk_iff (s : State) : HeatOk s ↔ (view s).HeatOk := by
  simp only [HeatOk, View.HeatOk, view, live_eq, Cold]

theorem windowOk_iff (s : State) : WindowOk s ↔ (view s).WindowOk := Iff.rfl

theorem risingOk_iff (s : State) : RisingOk s ↔ (view s).RisingOk := Iff.rfl

/-- With `RunOk`, no socket runs while no board is ATTACHED. -/
theorem View.RunOk.quiet {v : View} (h : v.RunOk) (ha : v.attach ≠ .attached) (k : Socket) :
    busyIn (v.state k) = false :=
  Bool.eq_false_iff.mpr fun hb => ha (h.2 (h.1 k hb))

theorem busyIn_false_ne {x : SocketState} (h : busyIn x = false) :
    liveIn x = false ∧ x ≠ .stressing := by
  cases x <;> first | exact ⟨rfl, nofun⟩ | cases h

/-! ### Each kind of change keeps each invariant -/

theorem Move.runOk {v w : View} (h : Move v w) (hv : v.RunOk) : w.RunOk := by
  obtain ⟨hbusy, hattached⟩ := hv
  cases h with
  | rails | heat | windows | bus | log | policy | clears | limit => exact ⟨hbusy, hattached⟩
  | begins x hmode hx => exact ⟨fun _ _ => hmode, hattached⟩
  | stresses x hx =>
    refine ⟨fun k hk => ?_, hattached⟩
    rcases hx k with he | ⟨he, -⟩
    · exact hbusy k (he ▸ hk)
    · exact hbusy k (by rw [he]; rfl)
  | halts x hx =>
    refine ⟨fun k hk => ?_, hattached⟩
    rcases hx k with he | ⟨he, -⟩
    · exact hbusy k (he ▸ hk)
    · exact hbusy k (busyIn_of_live he)
  | settles x hx =>
    refine ⟨fun k hk => ?_, hattached⟩
    rcases hx k with he | ⟨he, -⟩
    · exact hbusy k (he ▸ hk)
    · exact absurd (he.symm.trans hk) Bool.false_ne_true
  | mode m hm ha => exact ⟨fun k hk => hm k hk (hbusy k hk), fun hr => (ha hr).elim hattached id⟩
  | attach a ha => exact ⟨hbusy, fun hr => ha hr (hattached hr)⟩
  | safe a x rest cold windowed busOk hstate =>
    exact ⟨fun k hk => absurd ((hstate k).symm.trans hk) Bool.false_ne_true, fun hr => nomatch hr⟩

theorem Move.railsOk {v w : View} (h : Move v w) (hr : v.RunOk) (hv : v.RailsOk) : w.RailsOk := by
  cases h with
  | heat | windows | bus | log | policy | clears | mode | attach | limit => exact hv
  | rails p n hrest => exact fun k hk => hrest k hk (hv k hk)
  | begins x hmode hx =>
    intro k hk
    rcases hx k with he | ⟨-, he⟩
    · exact hv k (he ▸ hk)
    · exact absurd (show busyIn (x k) = false from hk) (by rw [he]; decide)
  | stresses x hx =>
    intro k hk
    rcases hx k with he | ⟨-, he⟩
    · exact hv k (he ▸ hk)
    · exact absurd (show busyIn (x k) = false from hk) (by rw [he]; decide)
  | halts x hx =>
    intro k hk
    rcases hx k with he | ⟨-, he, -⟩
    · exact hv k (he ▸ hk)
    · exact absurd (show busyIn (x k) = false from hk) (by rw [he]; decide)
  | settles x hx =>
    intro k hk
    rcases hx k with he | ⟨-, he | he | ⟨-, he⟩⟩
    · exact hv k (he ▸ hk)
    · exact hv k he
    · exact hv k (hr.quiet he k)
    · exact he
  | safe a x rest cold windowed busOk hstate hrest => exact fun k _ => hrest k

theorem Move.heatOk {v w : View} (h : Move v w) (hr : v.RunOk) (hv : v.HeatOk) : w.HeatOk := by
  cases h with
  | rails | windows | bus | log | policy | clears | mode | attach | limit => exact hv
  | heat p hcold => exact fun k hk => hcold k hk (hv k hk)
  | begins x hmode hx =>
    intro k hk
    rcases hx k with he | ⟨-, he⟩
    · exact hv k (he ▸ hk)
    · exact absurd (show liveIn (x k) = false from hk) (by rw [he]; decide)
  | stresses x hx =>
    intro k hk
    rcases hx k with he | ⟨-, he⟩
    · exact hv k (he ▸ hk)
    · exact absurd (show liveIn (x k) = false from hk) (by rw [he]; decide)
  | halts x hx =>
    intro k hk
    rcases hx k with he | ⟨-, -, he, -⟩
    · exact hv k (he ▸ hk)
    · exact he
  | settles x hx =>
    intro k hk
    rcases hx k with he | ⟨-, he | he | ⟨he, -⟩⟩
    · exact hv k (he ▸ hk)
    · exact hv k (busyIn_false_ne he).1
    · exact hv k (busyIn_false_ne (hr.quiet he k)).1
    · exact hv k (by rw [he]; rfl)
  | safe a x rest cold windowed busOk hstate hrest hcold => exact fun k _ => hcold k (hv k)

theorem Move.windowOk {v w : View} (h : Move v w) (hr : v.RunOk) (hv : v.WindowOk) : w.WindowOk := by
  cases h with
  | rails | heat | bus | log | policy | clears | mode | attach | limit => exact hv
  | windows p hopen => exact fun k hk => (hopen k hk).elim (hv k) id
  | begins x hmode hx =>
    intro k hk
    rcases hx k with he | ⟨he, -⟩
    · exact he.trans (hv k hk)
    · exact absurd (hv k hk) (busyIn_false_ne he).2
  | stresses x hx =>
    intro k hk
    rcases hx k with he | ⟨-, he⟩
    · exact he.trans (hv k hk)
    · exact he
  | halts x hx =>
    intro k hk
    rcases hx k with he | ⟨-, -, -, he⟩
    · exact he.trans (hv k hk)
    · exact absurd hk he
  | settles x hx =>
    intro k hk
    rcases hx k with he | ⟨-, he | he | ⟨he, -⟩⟩
    · exact he.trans (hv k hk)
    · exact absurd (hv k hk) (busyIn_false_ne he).2
    · exact absurd (hv k hk) (busyIn_false_ne (hr.quiet he k)).2
    · exact absurd (he.symm.trans (hv k hk)) (by decide)
  | safe a x rest cold windowed busOk hstate hrest hcold hwindow =>
    intro k hk
    obtain ⟨hw, hl⟩ := hwindow k hk
    rw [hv k hw] at hl
    cases hl

theorem Move.risingOk {v w : View} (h : Move v w) (hr : v.RunOk) (hrails : v.RailsOk)
    (hv : v.RisingOk) : w.RisingOk := by
  cases h with
  | heat | windows | bus | log | policy | clears | begins | stresses | halts | settles | mode
  | attach => exact hv
  | rails p n hrest hrising => exact hrising hv
  | limit n hmode hzero =>
    have hquiet : ∀ k, busyIn (v.state k) = false := fun k =>
      Bool.eq_false_iff.mpr fun hb => absurd (hr.1 k hb) (by rw [hmode]; decide)
    have hcount : v.rising = 0 := hzero fun k => hrails k (hquiet k)
    show v.rising ≤ n
    exact hcount ▸ Nat.zero_le n
  | safe => exact Nat.zero_le _

theorem Move.busOk {v w : View} (h : Move v w) (hv : v.busOk) : w.busOk := by
  cases h with
  | bus p hp => exact hp hv
  | safe a x rest cold windowed busOk hstate hrest hcold hwindow hbus => exact hbus hv
  | _ => exact hv

theorem Move.logOk {v w : View} (h : Move v w) (hv : v.logOk) : w.logOk := by
  cases h with
  | log p hp => exact hp hv
  | _ => exact hv

theorem Move.policyOk {v w : View} (h : Move v w) (hv : v.policyOk) : w.policyOk := by
  cases h with
  | policy p hp => exact hp hv
  | _ => exact hv

theorem Move.pending {v w : View} (h : Move v w) : w.pending = v.pending := by
  cases h <;> rfl

/-- No move but a clearing touches a credit. -/
theorem Move.credit {v w : View} (h : Move v w) (k : Socket) :
    w.credit k = v.credit k ∨ w.credit k = 0 := by
  cases h with
  | clears c hc => exact hc k
  | _ => exact .inl rfl

/-! ### From one move to many -/

/-- What every move keeps, every change made of moves keeps. -/
theorem Moves.keep {P : View → Prop} (hP : ∀ v w, Move v w → P v → P w) {v w : View} (h : Moves v w)
    (hv : P v) : P w := by
  induction h with
  | refl => exact hv
  | tail _ hmove ih => exact hP _ _ hmove ih

theorem Moves.pending {v w : View} (h : Moves v w) : w.pending = v.pending := by
  induction h with
  | refl => rfl
  | tail _ hmove ih => exact hmove.pending.trans ih

theorem Moves.credit {v w : View} (h : Moves v w) (k : Socket) :
    w.credit k = v.credit k ∨ w.credit k = 0 := by
  induction h with
  | refl => exact .inl rfl
  | tail _ hmove ih =>
    rcases hmove.credit k with he | he
    · exact ih.imp he.trans he.trans
    · exact .inr he

end Sys2Proof.Machine
end

section
/-! SUPPORT. The operations of the Rail Sequencer, as moves: what they do to the number of rails in RISING, and
to a socket at rest. -/

namespace Sys2Proof.Machine

/-! ### The number of rails in RISING (R55) -/

/-- A sum changes by the change of the one term that differs. -/
theorem sumSockets_change {f g : Socket → Nat} {k : Socket} (h : ∀ j, j ≠ k → f j = g j) :
    sumSockets f + g k = sumSockets g + f k := by
  have key : ∀ l : List Socket, l.Nodup → k ∈ l →
      (l.map f).sum + g k = (l.map g).sum + f k := by
    intro l hl hk
    induction l with
    | nil => cases hk
    | cons j rest ih =>
      rw [List.nodup_cons] at hl
      simp only [List.map_cons, List.sum_cons]
      rcases List.mem_cons.mp hk with rfl | hk
      · have hrest : rest.map f = rest.map g :=
          List.map_congr_left fun i hi => h i fun he => hl.1 (he ▸ hi)
        rw [hrest]
        omega
      · have hj : f j = g j := h j fun he => hl.1 (he ▸ hk)
        have := ih hl.2 hk
        omega
  rw [sumSockets_eq, sumSockets_eq]
  exact key allSockets allSockets_nodup (mem_allSockets k)

theorem risingCount_eq_sum (s : State) : s.risingCount = sumSockets s.risingOf := rfl

/-- The count depends on the rails alone. -/
theorem risingCount_of_rails {s t : State} (h : t.rails = s.rails) : t.risingCount = s.risingCount := by
  rw [risingCount_eq_sum, risingCount_eq_sum]
  refine sumSockets_congr fun k => ?_
  unfold State.risingOf State.rail
  rw [h]

/-- How much a rail adds to the count. -/
def risesIn (x : Rail) : Nat := if x.state = .rising then 1 else 0

theorem risesIn_le (x : Rail) : risesIn x ≤ 1 := by
  unfold risesIn
  split <;> decide

theorem risingOf_eq (s : State) (k : Socket) :
    s.risingOf k = risesIn (s.rail k .core) + risesIn (s.rail k .aux) := rfl

/-- A rail that changes changes the count by its own part. -/
theorem enterRail_risingCount (k : Socket) (r : RailKind) (x : Rail) (s : State) :
    (enterRail k r x s).risingCount + risesIn (s.rail k r) = s.risingCount + risesIn x := by
  have hother : ∀ j, j ≠ k → (enterRail k r x s).risingOf j = s.risingOf j := by
    intro j hj
    simp only [risingOf_eq, enterRail_rail, hj, false_and, if_false]
  have hsum := sumSockets_change hother
  rw [← risingCount_eq_sum, ← risingCount_eq_sum] at hsum
  cases r <;>
    simp only [risingOf_eq, enterRail_rail, and_self, and_false, if_true, if_false,
      reduceCtorEq] at hsum <;> omega

/-- A rail that enters any state but RISING does not raise the count. -/
theorem enterRail_risingCount_le {x : Rail} (h : x.state ≠ .rising) (k : Socket) (r : RailKind)
    (s : State) : (enterRail k r x s).risingCount ≤ s.risingCount := by
  have hx : risesIn x = 0 := if_neg h
  have := enterRail_risingCount k r x s
  omega

theorem grantRail_risingCount_le (k : Socket) (r : RailKind) (s : State) :
    (grantRail k r s).risingCount ≤ s.risingCount + 1 := by
  have hrails : (grantRail k r s).rails = (enterRail k r
      ⟨.rising, some (s.inMs (s.brd.rail.get r).riseMs), s.effSetpoint k r / 5⟩ s).rails := by
    unfold grantRail
    rw [regFaultCheck_rails, setCond_rails]
  rw [risingCount_of_rails hrails]
  have := enterRail_risingCount k r
    ⟨.rising, some (s.inMs (s.brd.rail.get r).riseMs), s.effSetpoint k r / 5⟩ s
  have := risesIn_le ⟨.rising, some (s.inMs (s.brd.rail.get r).riseMs), s.effSetpoint k r / 5⟩
  omega

/-- A grant decision keeps the inrush limit: each grant is made below it (R55). -/
theorem grantAll_risingOk (l : List (Socket × RailKind)) (s : State) (h : RisingOk s) :
    RisingOk (grantAll l s) := by
  induction l generalizing s with
  | nil => exact h
  | cons x rest ih =>
    obtain ⟨k, r⟩ := x
    unfold grantAll
    split
    · rename_i hc
      refine ih _ ?_
      have hle := grantRail_risingCount_le k r s
      unfold RisingOk
      rw [(grantRail_only k r s).board]
      omega
    · exact h

theorem grantDecision_risingOk {s : State} (h : RisingOk s) : RisingOk (grantDecision s) :=
  grantAll_risingOk _ s h

/-! ### What the operations of one socket are made of -/

/-- The changes an operation of socket `k`'s run is made of: a rail of `k` enters a state that is not RISING,
the run of `k` changes, a fail is raised, a grant decision is made. -/
inductive RailMove (k : Socket) : State → State → Prop
  | enters (r : RailKind) {x : Rail} (h : x.state ≠ .rising) (s : State) : RailMove k s (enterRail k r x s)
  | runs (v : Option Run) (s : State) : RailMove k s (s.setRun k v)
  | raises (f : FailMsg) (s : State) : RailMove k s (s.raiseFail f)
  | grants (s : State) : RailMove k s (grantDecision s)

/-- Any number of such changes. -/
abbrev RailMoves (k : Socket) : State → State → Prop := Relation.ReflTransGen (RailMove k)

theorem RailMoves.only {k : Socket} {s t : State} (h : RailMoves k s t) : RailsOnly s t := by
  induction h with
  | refl => exact RailsOnly.refl s
  | tail _ hmove ih =>
    refine ih.trans ?_
    cases hmove with
    | enters r hx => exact enterRail_only k r _ _
    | runs v => exact setRun_only k v _
    | raises f => exact raiseFail_only f _
    | grants => exact grantDecision_only _

theorem RailMoves.risingOk {k : Socket} {s t : State} (h : RailMoves k s t) (hs : RisingOk s) :
    RisingOk t := by
  induction h with
  | refl => exact hs
  | tail _ hmove ih =>
    cases hmove with
    | enters r hx => exact (enterRail_risingCount_le hx k r _).trans ih
    | runs v => exact ih
    | raises f => exact ih
    | grants => exact grantDecision_risingOk ih

theorem enterRail_moves {x : Rail} (h : x.state ≠ .rising) (k : Socket) (r : RailKind) (s : State) :
    RailMoves k s (enterRail k r x s) := .single (.enters r h s)

theorem grantDecision_moves (k : Socket) (s : State) : RailMoves k s (grantDecision s) :=
  .single (.grants s)

theorem setRun_moves (k : Socket) (v : Option Run) (s : State) : RailMoves k s (s.setRun k v) :=
  .single (.runs v s)

theorem setCond_moves (k : Socket) (c : StepCondition) (s : State) : RailMoves k s (setCond k c s) := by
  unfold setCond
  split
  · exact setRun_moves k _ s
  · exact .refl

theorem setStep_moves (k : Socket) (i : Nat) (c : StepCondition) (s : State) :
    RailMoves k s (setStep k i c s) := by
  unfold setStep
  split
  · exact setRun_moves k _ s
  · exact .refl

theorem joinList_moves (k : Socket) (r : RailKind) (s : State) : RailMoves k s (joinList k r s) := by
  unfold joinList
  exact ((enterRail_moves (by decide) k r s).trans (setCond_moves k _ _)).trans (grantDecision_moves k _)

theorem dropRail_moves (k : Socket) (r : RailKind) (s : State) : RailMoves k s (dropRail k r s) := by
  have hfalling : (⟨.falling, some (s.inMs (s.brd.rail.get r).fallMs), 0⟩ : Rail).state ≠ .rising :=
    (by decide : RailState.falling ≠ .rising)
  unfold dropRail
  split
  · exact enterRail_moves hfalling k r s
  · exact enterRail_moves hfalling k r s
  · exact enterRail_moves (by decide) k r s
  · exact .refl
  · exact .refl

theorem dropBoth_moves (k : Socket) (s : State) : RailMoves k s (dropBoth k s) :=
  (dropRail_moves k .core s).trans (dropRail_moves k .aux _)

theorem finishRun_moves (k : Socket) (s : State) : RailMoves k s (finishRun k s) := by
  unfold finishRun
  split
  · exact .refl
  · split
    · exact setRun_moves k _ s
    · have hend : RailMoves k s
          (if bothOff k (dropBoth k s) = true then (dropBoth k s).setRun k none
            else setCond k .falling (dropBoth k s)) := by
        split
        · exact (dropBoth_moves k s).trans (setRun_moves k _ _)
        · exact (dropBoth_moves k s).trans (setCond_moves k _ _)
      dsimp only
      split
      · exact hend.trans (grantDecision_moves k _)
      · exact hend

theorem runSteps_moves (l : List Step) (i : Nat) (k : Socket) (s : State) :
    RailMoves k s (runSteps l i k s) := by
  induction l generalizing i s with
  | nil => exact finishRun_moves k s
  | cons x rest ih =>
    have hset := fun c => setStep_moves k i c s
    unfold runSteps
    split
    · split
      · exact (hset _).trans (joinList_moves k _ _)
      · exact (hset _).trans (ih _ _)
      all_goals exact hset _
    · split
      · exact (hset _).trans (dropRail_moves k _ _)
      · exact ((hset _).trans (dropRail_moves k _ _)).trans (grantDecision_moves k _)
      · exact hset _
      · exact ((hset _).trans (dropRail_moves k _ _)).trans (ih _ _)
      · exact (hset _).trans (ih _ _)
    · exact hset _
    · exact hset _

theorem startRun_moves (k : Socket) (d : RunDirection) (p : ProfileId) (s : State) :
    RailMoves k s (startRun k d p s) :=
  (setRun_moves k _ s).trans (runSteps_moves _ _ k _)

theorem nextStep_moves (k : Socket) (s : State) : RailMoves k s (nextStep k s) := by
  unfold nextStep
  split
  · exact runSteps_moves _ _ k s
  · exact .refl

theorem abandonRail_moves (k : Socket) (r : RailKind) (s : State) :
    RailMoves k s (abandonRail k r s) := by
  unfold abandonRail
  split
  · exact dropRail_moves k r s
  · exact dropRail_moves k r s
  all_goals exact .refl

theorem abandonUp_moves (k : Socket) (s : State) : RailMoves k s (abandonUp k s) := by
  unfold abandonUp
  split
  · exact .refl
  · have hend := (((abandonRail_moves k .core s).trans (abandonRail_moves k .aux _)).trans
      (setRun_moves k none _))
    dsimp only
    split
    · exact hend.trans (grantDecision_moves k _)
    · exact hend

theorem stopRun_moves (k : Socket) (s : State) : RailMoves k s (stopRun k s) := by
  unfold stopRun
  dsimp only
  refine Relation.ReflTransGen.trans ?_ (startRun_moves k _ _ _)
  split
  · exact abandonUp_moves k s
  · exact .refl

theorem tripCheck_moves (k : Socket) (r : RailKind) (c : Nat) (s : State) :
    RailMoves k s (tripCheck k r c s) := by
  unfold tripCheck
  split
  · exact .single (.raises _ s)
  · exact .refl

theorem passVerify_moves (k : Socket) (r : RailKind) (s : State) : RailMoves k s (passVerify k r s) := by
  unfold passVerify
  split
  · exact nextStep_moves k s
  · exact .refl

theorem sequencerSample_moves (k : Socket) (r : RailKind) (c : Nat) (s : State) :
    RailMoves k s (sequencerSample k r c s) :=
  (tripCheck_moves k r c s).trans (passVerify_moves k r _)

theorem endRise_moves (k : Socket) (r : RailKind) (s : State) : RailMoves k s (endRise k r s) := by
  unfold endRise
  split
  · have hon : (⟨.on, none, (s.rail k r).code⟩ : Rail).state ≠ .rising :=
      (by decide : RailState.on ≠ .rising)
    refine (enterRail_moves hon k r s).trans
      (Relation.ReflTransGen.trans ?_ (grantDecision_moves k _))
    split
    · split
      · exact nextStep_moves k _
      · exact .refl
    · exact .refl
  · exact .refl

theorem afterFall_moves (k : Socket) (r : RailKind) (s : State) : RailMoves k s (afterFall k r s) := by
  unfold afterFall
  split
  · exact .refl
  · split
    · split
      · exact nextStep_moves k s
      · exact .refl
    · exact finishRun_moves k s
    · split
      · exact joinList_moves k r s
      · exact .refl
    · exact .refl

theorem endFall_moves (k : Socket) (r : RailKind) (s : State) : RailMoves k s (endFall k r s) := by
  unfold endFall
  split
  · exact (enterRail_moves (by decide) k r s).trans (afterFall_moves k r _)
  · exact .refl

theorem endDwell_moves (k : Socket) (s : State) : RailMoves k s (endDwell k s) := by
  unfold endDwell
  split
  · exact nextStep_moves k s
  · exact .refl

/-! ### A socket at rest -/

theorem bothOff_iff {k : Socket} {s : State} :
    bothOff k s = true ↔ ∀ r, (s.rail k r).state = .off := by
  unfold bothOff
  rw [Bool.and_eq_true, beq_iff_eq, beq_iff_eq]
  exact ⟨fun h r => by cases r; exacts [h.1, h.2], fun h => ⟨h .core, h .aux⟩⟩

/-- What grants alone touch leaves a socket at rest: its rails are OFF, and none waits. -/
theorem AtRest.granted {j : Socket} {s t : State} (h : GrantedAtMost j s t) (hs : AtRest j s) :
    AtRest j t := by
  obtain ⟨hoff, hrun⟩ := hs
  obtain ⟨hrails, hruns⟩ := h
  rw [bothOff_iff] at hoff
  refine ⟨bothOff_iff.mpr fun r => ?_, ?_⟩
  · rcases hrails r with he | ⟨he, -⟩
    · rw [he, hoff r]
    · exact absurd (he.symm.trans (hoff r)) (by decide)
  · rcases hruns with he | ⟨x, he, -⟩
    · rw [he, hrun]
    · exact absurd (he.symm.trans hrun) (Option.some_ne_none x)

theorem RailMove.other {j k : Socket} (hj : j ≠ k) {s t : State} (h : RailMove k s t) :
    GrantedAtMost j s t := by
  cases h with
  | enters r hx => exact enterRail_other hj r _ s
  | runs v => exact setRun_other hj v s
  | raises f => exact .of_eq (fun _ => rfl) rfl
  | grants => exact grantDecision_granted s j

/-- An operation of `k`'s run leaves every other socket at rest that was. -/
theorem RailMoves.atRest {j k : Socket} (hj : j ≠ k) {s t : State} (h : RailMoves k s t)
    (hs : AtRest j s) : AtRest j t := by
  induction h with
  | refl => exact hs
  | tail _ hmove ih => exact ih.granted (hmove.other hj)

/-- A rail that is not RISING has no rise to end. -/
theorem endRise_of_ne {k : Socket} {r : RailKind} {s : State} (h : (s.rail k r).state ≠ .rising) :
    endRise k r s = s := if_neg h

theorem endFall_of_ne {k : Socket} {r : RailKind} {s : State} (h : (s.rail k r).state ≠ .falling) :
    endFall k r s = s := if_neg h

/-- Without a run there is no dwell to end. -/
theorem endDwell_of_none {k : Socket} {s : State} (h : s.run k = none) : endDwell k s = s := by
  unfold endDwell
  rw [h]

/-- Without a run no VERIFY waits. -/
theorem verifyBounds_of_none {k : Socket} {s : State} (h : s.run k = none) (r : RailKind) :
    verifyBounds k r s = none := by
  unfold verifyBounds
  rw [h]

theorem passVerify_of_none {k : Socket} {s : State} (h : s.run k = none) (r : RailKind) :
    passVerify k r s = s := by
  rw [passVerify, verifyBounds_of_none h, if_neg (by decide)]

theorem tripCheck_run (k : Socket) (r : RailKind) (c : Nat) (s : State) (j : Socket) :
    (tripCheck k r c s).run j = s.run j := by
  unfold tripCheck
  split <;> rfl

theorem tripCheck_rail (k : Socket) (r : RailKind) (c : Nat) (s : State) (j : Socket) (q : RailKind) :
    (tripCheck k r c s).rail j q = s.rail j q := by
  unfold tripCheck
  split <;> rfl

/-- A current sample leaves a socket at rest. -/
theorem sequencerSample_atRest {k : Socket} {s : State} (h : AtRest k s) (r : RailKind) (c : Nat) :
    AtRest k (sequencerSample k r c s) := by
  obtain ⟨hoff, hrun⟩ := h
  have hnone : (tripCheck k r c s).run k = none := by rw [tripCheck_run, hrun]
  rw [sequencerSample, passVerify_of_none hnone]
  refine ⟨bothOff_iff.mpr fun q => ?_, hnone⟩
  rw [tripCheck_rail, bothOff_iff.mp hoff]

theorem endRise_atRest {k : Socket} {s : State} (h : AtRest k s) (r : RailKind) :
    AtRest k (endRise k r s) := by
  rw [endRise_of_ne (by rw [bothOff_iff.mp h.1]; decide)]
  exact h

theorem endFall_atRest {k : Socket} {s : State} (h : AtRest k s) (r : RailKind) :
    AtRest k (endFall k r s) := by
  rw [endFall_of_ne (by rw [bothOff_iff.mp h.1]; decide)]
  exact h

theorem endDwell_atRest {k : Socket} {s : State} (h : AtRest k s) : AtRest k (endDwell k s) := by
  rw [endDwell_of_none h.2]
  exact h

/-! ### The Rail Sequencer's operations lead to what they answer -/

theorem leads_refl (s : State) : Leads s s := .refl

theorem leads_of_view {s t : State} (h : view t = view s) : Leads s t := by
  rw [Leads, h]

theorem Leads.trans {s t u : State} (h : Leads s t) (g : Leads t u) : Leads s u :=
  Relation.ReflTransGen.trans h g

theorem leads_rails {s t : State} (h : RailsOnly s t)
    (hrest : ∀ k, s.busy k = false → AtRest k s → AtRest k t) (hrising : RisingOk s → RisingOk t) :
    Leads s t := by
  have hview : view t = { view s with atRest := fun k => AtRest k t, rising := t.risingCount } :=
    (congrArg view h.eq :)
  rw [Leads, hview]
  refine .single (.rails _ _ (fun k hk => hrest k ((busy_eq s k).trans hk)) fun hle => ?_)
  have hboard : t.board = s.board := h.board
  have := hrising hle
  rwa [RisingOk, hboard] at this

/-- An operation of `k`'s run, where `k` runs or stays at rest. -/
theorem leads_run {k : Socket} {s t : State} (h : RailMoves k s t)
    (hk : s.busy k = false → AtRest k s → AtRest k t) : Leads s t := by
  refine leads_rails h.only (fun j hj hrest => ?_) h.risingOk
  by_cases hjk : j = k
  · subst hjk
    exact hk hj hrest
  · exact h.atRest hjk hrest

theorem leads_busyRun {k : Socket} {s t : State} (h : RailMoves k s t) (hk : s.busy k = true) :
    Leads s t :=
  leads_run h fun hf => absurd (hf.symm.trans hk) Bool.false_ne_true

theorem grantDecision_leads (s : State) : Leads s (grantDecision s) :=
  leads_rails (grantDecision_only s) (fun k _ h => h.granted (grantDecision_granted s k))
    grantDecision_risingOk

theorem endRise_leads (k : Socket) (r : RailKind) (s : State) : Leads s (endRise k r s) :=
  leads_run (endRise_moves k r s) fun _ h => endRise_atRest h r

theorem endFall_leads (k : Socket) (r : RailKind) (s : State) : Leads s (endFall k r s) :=
  leads_run (endFall_moves k r s) fun _ h => endFall_atRest h r

theorem endDwell_leads (k : Socket) (s : State) : Leads s (endDwell k s) :=
  leads_run (endDwell_moves k s) fun _ => endDwell_atRest

theorem sequencerSample_leads (k : Socket) (r : RailKind) (c : Nat) (s : State) :
    Leads s (sequencerSample k r c s) :=
  leads_run (sequencerSample_moves k r c s) fun _ h => sequencerSample_atRest h r c

end Sys2Proof.Machine
end

section
/-! SUPPORT. The operations that several commands share, as moves: records, entries to STARTING, stop orders,
fails, bursts, the supply account, SAFE. -/

namespace Sys2Proof.Machine

/-! ### Fields of the view -/

/-- Socket records change, and neither their states nor, short of a clearing, their credits. -/
theorem leads_records {s : State} (x : Tab SocketRecord)
    (hstate : ∀ k, (look x k).state = (s.sock k).state)
    (hcredit : ∀ k, (look x k).credit = (s.sock k).credit ∨ (look x k).credit = 0) :
    Leads s { s with sockets := x } := by
  have hview : view { s with sockets := x } = { view s with credit := fun k => (look x k).credit } := by
    refine View.ext rfl rfl rfl rfl ?_ rfl rfl rfl rfl rfl rfl rfl rfl
    exact funext hstate
  rw [Leads, hview]
  exact .single (.clears _ hcredit)

theorem sock_modSock (s : State) (k : Socket) (f : SocketRecord → SocketRecord) (j : Socket) :
    (s.modSock k f).sock j = if j = k then f (s.sock k) else s.sock j := by
  simp only [State.sock, State.modSock_sockets, look_put]

/-- One record changes, and neither its state nor its credit. -/
theorem leads_modSock (s : State) (k : Socket) (f : SocketRecord → SocketRecord)
    (hstate : (f (s.sock k)).state = (s.sock k).state)
    (hcredit : (f (s.sock k)).credit = (s.sock k).credit) : Leads s (s.modSock k f) := by
  refine leads_records (put s.sockets k (f (look s.sockets k))) (fun j => ?_) fun j => .inl ?_
  all_goals
    rw [look_put]
    split
    · subst_vars
      assumption
    · rfl

/-- Control states, duties and heater outputs change, and those of a cold socket that is not live stay so. -/
theorem leads_heat {s t : State} (hview : view t = { view s with cold := fun k => Cold k t })
    (hcold : ∀ k, s.live k = false → Cold k s → Cold k t) : Leads s t := by
  rw [Leads, hview]
  exact .single (.heat _ fun k hk => hcold k ((live_eq s k).trans hk))

/-- Windows change, and open for STRESSING sockets alone. -/
theorem leads_windows {s t : State}
    (hview : view t = { view s with windowed := fun k => windowOf k t ≠ none })
    (hopen : ∀ k, windowOf k t ≠ none → windowOf k s ≠ none ∨ (s.sock k).state = .stressing) :
    Leads s t := by
  rw [Leads, hview]
  exact .single (.windows _ hopen)

theorem leads_bus {s t : State} (hview : view t = { view s with busOk := BusOk t })
    (h : BusOk s → BusOk t) : Leads s t := by
  rw [Leads, hview]
  exact .single (.bus _ h)

theorem leads_log {s t : State} (hview : view t = { view s with logOk := LogOk t })
    (h : LogOk s → LogOk t) : Leads s t := by
  rw [Leads, hview]
  exact .single (.log _ h)

theorem leads_policy {s t : State} (hview : view t = { view s with policyOk := PolicyOk t })
    (h : PolicyOk s → PolicyOk t) : Leads s t := by
  rw [Leads, hview]
  exact .single (.policy _ h)

theorem leads_mode {s t : State} (hview : view t = { view s with mode := t.mode })
    (hbusy : ∀ k, s.busy k = true → runningMode s.mode = true → runningMode t.mode = true)
    (hattached : runningMode t.mode = true → runningMode s.mode = true ∨ s.board.attach = .attached) :
    Leads s t := by
  rw [Leads, hview]
  exact .single (.mode _ (fun k hk => hbusy k ((busy_eq s k).trans hk)) hattached)

theorem leads_attach {s t : State} (hview : view t = { view s with attach := t.board.attach })
    (h : runningMode s.mode = true → s.board.attach = .attached → t.board.attach = .attached) :
    Leads s t := by
  rw [Leads, hview]
  exact .single (.attach _ h)

/-! ### Entry to STARTING (R4) -/

/-- The state of a socket after its record, its control state and its tick result were made for STARTING. -/
def startMade (k : Socket) (s : State) : State :=
  { s with
    sockets := put s.sockets k (startingRecord (s.sock k))
    heat := put s.heat k (startingHeat s k)
    tickResult := put s.tickResult k none }

theorem startMade_sock (k : Socket) (s : State) (j : Socket) :
    (startMade k s).sock j = if j = k then startingRecord (s.sock k) else s.sock j := by
  simp only [State.sock, startMade, look_put]

theorem startMade_leads {k : Socket} {s : State} (hmode : runningMode s.mode = true)
    (hk : s.busy k = false) : Leads s (startMade k s) := by
  have hstate : ∀ j, ((startMade k s).sock j).state
      = if j = k then .starting else (s.sock j).state := by
    intro j
    rw [startMade_sock]
    split <;> rfl
  have hcredit : (fun j => ((startMade k s).sock j).credit) = (view s).credit := by
    funext j
    rw [startMade_sock]
    split
    · subst_vars
      rfl
    · rfl
  have hview : view (startMade k s) = { view s with
      state := fun j => ((startMade k s).sock j).state, cold := fun j => Cold j (startMade k s) } :=
    View.ext rfl rfl rfl rfl rfl hcredit rfl rfl rfl rfl rfl rfl rfl
  rw [Leads, hview]
  refine Relation.ReflTransGen.tail
    (b := { view s with state := fun j => ((startMade k s).sock j).state })
    (.single (.begins _ hmode fun j => ?_)) (.heat (fun j => Cold j (startMade k s)) fun j hj hcold => ?_)
  · rw [hstate j]
    by_cases hjk : j = k
    · subst hjk
      exact .inr ⟨(busy_eq s j).symm.trans hk, if_pos rfl⟩
    · exact .inl (if_neg hjk)
  · by_cases hjk : j = k
    · have hstarting : ((startMade k s).sock j).state = .starting := (hstate j).trans (if_pos hjk)
      exact absurd (show liveIn ((startMade k s).sock j).state = false from hj)
        (by rw [hstarting]; decide)
    · unfold Cold startMade
      rw [look_put_other _ _ _ _ hjk]
      exact hcold

theorem enterStarting_startMade (k : Socket) (s : State) :
    enterStarting k s = startRun k .up (s.sock k).params.upProfile (startMade k s) :=
  enterStarting_eq k s

theorem startMade_busy (k : Socket) (s : State) : (startMade k s).busy k = true := by
  rw [busy_eq, startMade_sock, if_pos rfl]
  rfl

theorem enterStarting_leads {k : Socket} {s : State} (hmode : runningMode s.mode = true)
    (hk : s.busy k = false) : Leads s (enterStarting k s) := by
  rw [enterStarting_startMade]
  exact (startMade_leads hmode hk).trans
    (leads_busyRun (startRun_moves k _ _ _) (startMade_busy k s))

/-! ### Stop orders (R7, R8) -/

/-- The records that a stop order leaves. -/
theorem stopRecord_kept (d : OrderDest) (r : SocketRecord) :
    (stopRecord d r).state = .stopping ∧ (stopRecord d r).credit = r.credit := by
  cases d <;> exact ⟨rfl, rfl⟩

theorem restopRecord_kept (d : OrderDest) (r : SocketRecord) :
    (restopRecord d r).state = r.state ∧ (restopRecord d r).credit = r.credit := by
  cases d with
  | toRetired f =>
    unfold restopRecord
    dsimp only
    split
    · exact ⟨rfl, rfl⟩
    · exact ⟨rfl, rfl⟩
  | _ => exact ⟨rfl, rfl⟩

theorem zeroHeat_cold (k : Socket) (s : State) : Cold k (zeroHeat k s) := by
  rw [zeroHeat_eq]
  simp [Cold]

/-- Cutting the heat of one socket leaves every other as it is. -/
theorem zeroHeat_other {j k : Socket} (h : j ≠ k) {s : State} (hc : Cold j s) :
    Cold j (zeroHeat k s) := by
  rw [zeroHeat_eq]
  simpa [Cold, look_put_other _ _ _ _ h] using hc

theorem zeroHeat_leads (k : Socket) (s : State) : Leads s (zeroHeat k s) := by
  refine leads_heat rfl fun j _ hc => ?_
  by_cases hjk : j = k
  · subst hjk
    exact zeroHeat_cold j s
  · exact zeroHeat_other hjk hc

theorem windowOf_setWindow (k : Socket) (w : Option Window) (s : State) (j : Socket) :
    windowOf j (setWindow k w s) = if j = k then w else windowOf j s := by
  simp only [windowOf, setWindow, State.modMon_mon, look_put]
  split
  · rfl
  · rfl

theorem discardWindow_leads (k : Socket) (s : State) : Leads s (discardWindow k s) := by
  refine leads_windows rfl fun j hj => .inl ?_
  rw [discardWindow, windowOf_setWindow] at hj
  split at hj
  · exact absurd rfl hj
  · exact hj

/-- A live socket that is cold and has no window enters STOPPING. -/
theorem halt_leads {k : Socket} {s : State} (d : OrderDest) (hl : s.live k = true) (hc : Cold k s)
    (hw : windowOf k s = none) : Leads s (s.modSock k (stopRecord d)) := by
  have hcredit : (fun j => ((s.modSock k (stopRecord d)).sock j).credit) = (view s).credit := by
    funext j
    rw [sock_modSock]
    split
    · subst_vars
      exact (stopRecord_kept d _).2
    · rfl
  have hview : view (s.modSock k (stopRecord d))
      = { view s with state := fun j => ((s.modSock k (stopRecord d)).sock j).state } :=
    View.ext rfl rfl rfl rfl rfl hcredit rfl rfl rfl rfl rfl rfl rfl
  rw [Leads, hview]
  refine .single (.halts _ fun j => ?_)
  rw [sock_modSock]
  split
  · subst_vars
    exact .inr ⟨(live_eq s _).symm.trans hl, (stopRecord_kept d _).1, hc, fun h => h hw⟩
  · exact .inl rfl

theorem busy_of_live {s : State} {k : Socket} (h : s.live k = true) : s.busy k = true := by
  rw [busy_eq]
  exact busyIn_of_live ((live_eq s k).symm.trans h)

theorem stopSocketBy_leads {k : Socket} (d : OrderDest) {s : State} (hl : s.live k = true) :
    Leads s (stopSocketBy k d s) := by
  have hrun : Leads s (stopRun k s) := leads_busyRun (stopRun_moves k s) (busy_of_live hl)
  have hstill : (stopRun k s).live k = true := by
    rw [live_eq] at hl ⊢
    rw [(stopRun_only k s).sock k, hl]
  unfold stopSocketBy
  generalize stopRun k s = t at hrun hstill ⊢
  have hnone : windowOf k (discardWindow k (zeroHeat k t)) = none := by
    rw [discardWindow, windowOf_setWindow, if_pos rfl]
  have hcold : Cold k (discardWindow k (zeroHeat k t)) := zeroHeat_cold k t
  exact ((hrun.trans (zeroHeat_leads k t)).trans (discardWindow_leads k _)).trans
    (halt_leads d hstill hcold hnone)

theorem takeOrder_leads (o : StopOrder) (s : State) : Leads s (takeOrder o s) := by
  cases hl : s.live o.socket with
  | true =>
    rw [takeOrder_live hl]
    exact stopSocketBy_leads o.dest hl
  | false =>
    by_cases hs : (s.sock o.socket).state = .stopping
    · rw [takeOrder_stopping hs]
      exact leads_modSock s _ _ (restopRecord_kept _ _).1 (restopRecord_kept _ _).2
    · have hb : s.busy o.socket = false := by
        rw [live_eq] at hl
        rw [busy_eq]
        revert hl hs
        cases (s.sock o.socket).state <;> simp [liveIn, busyIn]
      rw [takeOrder_idle hb]
      exact leads_refl s

/-! ### States outside runs (R9, R11, R14, R16) -/

/-- Sockets enter states outside runs, each from such a state, from STOPPING at rest, or while no board is
ATTACHED. -/
theorem leads_settle {s : State} (x : Tab SocketRecord)
    (hstate : ∀ k, (look x k).state = (s.sock k).state ∨ (busyIn (look x k).state = false
      ∧ (s.busy k = false ∨ s.board.attach ≠ .attached
        ∨ ((s.sock k).state = .stopping ∧ AtRest k s))))
    (hcredit : ∀ k, (look x k).credit = (s.sock k).credit ∨ (look x k).credit = 0) :
    Leads s { s with sockets := x } := by
  have hview : view { s with sockets := x } = { view s with
      state := fun k => (look x k).state, credit := fun k => (look x k).credit } := rfl
  rw [Leads, hview]
  refine Relation.ReflTransGen.tail (b := { view s with state := fun k => (look x k).state })
    (.single (.settles _ fun k => ?_)) (.clears (fun k => (look x k).credit) hcredit)
  rcases hstate k with h | ⟨h, hfrom⟩
  · exact .inl h
  · rw [busy_eq] at hfrom
    exact .inr ⟨h, hfrom⟩

/-- One socket enters a state outside runs. -/
theorem leads_settleOne {s : State} {k : Socket} {f : SocketRecord → SocketRecord}
    (hto : busyIn (f (s.sock k)).state = false)
    (hfrom : s.busy k = false ∨ ((s.sock k).state = .stopping ∧ AtRest k s))
    (hcredit : (f (s.sock k)).credit = (s.sock k).credit ∨ (f (s.sock k)).credit = 0) :
    Leads s (s.modSock k f) := by
  refine leads_settle (put s.sockets k (f (look s.sockets k))) (fun j => ?_) fun j => ?_
  · rw [look_put]
    split
    · subst_vars
      exact .inr ⟨hto, hfrom.imp_right .inr⟩
    · exact .inl rfl
  · rw [look_put]
    split
    · subst_vars
      exact hcredit
    · exact .inl rfl

theorem destRecord_kept (bin hold : Nat) (d : StopDest) (r : SocketRecord) :
    busyIn (destRecord bin hold d r).state = false ∧ (destRecord bin hold d r).credit = r.credit := by
  cases d <;> exact ⟨rfl, rfl⟩

/-! ### The fail log and the taking of a fail (R136 to R141) -/

theorem mem_bumpNewest {l : List LogEntry} {e : LogEntry} (h : e ∈ bumpNewest l) :
    e ∈ l ∨ ∃ x, l.getLast? = some x ∧ e = { x with repeats := x.repeats + 1 } := by
  rcases List.eq_nil_or_concat l with rfl | ⟨older, x, rfl⟩
  · cases h
  · rw [List.concat_eq_append, bumpNewest_append, List.mem_append, List.mem_singleton] at h
    rw [List.concat_eq_append]
    rcases h with h | h
    · exact .inl (List.mem_append_left _ h)
    · exact .inr ⟨x, List.getLast?_concat .., h⟩

theorem bumpNewest_length (l : List LogEntry) : (bumpNewest l).length = l.length := by
  rcases List.eq_nil_or_concat l with rfl | ⟨older, x, rfl⟩
  · rfl
  · rw [List.concat_eq_append, bumpNewest_append, List.length_append, List.length_append]
    rfl

/-- The three ways of R141, by the newest entry and the length of the log. -/
theorem storing_cases (log : List LogEntry) (e : LogEntry) :
    (storing log e = .coalesce ∧ ∃ newest, log.getLast? = some newest ∧ coalesces newest e = true)
      ∨ (storing log e = .append ∧ log.length < 64)
      ∨ (storing log e = .dropped ∧ 64 ≤ log.length) := by
  have hroom : (if log.length < Config.logDepth then Storing.append else .dropped) = .append
        ∧ log.length < 64
      ∨ (if log.length < Config.logDepth then Storing.append else .dropped) = .dropped
        ∧ 64 ≤ log.length := by
    by_cases h : log.length < 64
    · exact .inl ⟨if_pos h, h⟩
    · exact .inr ⟨if_neg h, Nat.le_of_not_lt h⟩
  unfold storing
  cases hl : log.getLast? with
  | none => exact .inr hroom
  | some x =>
    by_cases hc : coalesces x e = true
    · exact .inl ⟨if_pos hc, x, rfl, hc⟩
    · dsimp only
      rw [if_neg hc]
      exact .inr hroom

theorem coalesces_repeats {newest e : LogEntry} (h : coalesces newest e = true) :
    newest.repeats < 255 := by
  unfold coalesces at h
  rw [Bool.and_eq_true, decide_eq_true_eq] at h
  exact h.2

/-- Storing an entry keeps the log in its ranges (R142). -/
theorem storeEntry_logOk {e : LogEntry} (he : e.repeats = 1) {s : State} (h : LogOk s) :
    LogOk (storeEntry e s) := by
  obtain ⟨hlen, hrep⟩ := h
  unfold storeEntry
  rcases storing_cases s.log e with ⟨hs, newest, hlast, hc⟩ | ⟨hs, hlt⟩ | ⟨hs, -⟩
  · rw [hs]
    refine ⟨?_, fun x hx => ?_⟩
    · show (bumpNewest s.log).length ≤ 64
      rw [bumpNewest_length]
      exact hlen
    · rcases mem_bumpNewest hx with hx | ⟨y, hy, rfl⟩
      · exact hrep x hx
      · rw [hlast, Option.some.injEq] at hy
        subst hy
        exact ⟨Nat.le_add_left 1 _, coalesces_repeats hc⟩
  · rw [hs]
    refine ⟨?_, fun x hx => ?_⟩
    · show (s.log ++ [e]).length ≤ 64
      rw [List.length_append]
      exact hlt
    · rcases List.mem_append.mp hx with hx | hx
      · exact hrep x hx
      · rw [List.mem_singleton.mp hx, he]
        decide
  · rw [hs]
    exact ⟨hlen, hrep⟩

theorem storeEntry_leads {e : LogEntry} (he : e.repeats = 1) (s : State) : Leads s (storeEntry e s) := by
  have hlog : LogOk s → LogOk (storeEntry e s) := storeEntry_logOk he
  unfold storeEntry at hlog ⊢
  split
  · rename_i hs
    rw [hs] at hlog
    exact leads_log rfl hlog
  · rename_i hs
    rw [hs] at hlog
    exact leads_log rfl hlog
  · exact leads_modSock s _ _ rfl rfl

theorem actAndLog_leads (f : FailMsg) (act : Option OrderDest × LogAction) (s : State) :
    Leads s (actAndLog f act s) := by
  unfold actAndLog
  dsimp only
  split
  · exact (takeOrder_leads _ s).trans (storeEntry_leads rfl _)
  · exact storeEntry_leads rfl s

theorem countRecord_leads (f : FailKind) (time : Nat) (k : Socket) (s : State) :
    Leads s (s.modSock k (countRecord f time)) := leads_modSock s k _ rfl rfl

theorem takeFail_leads (f : FailMsg) (s : State) : Leads s (takeFail f s) := by
  unfold takeFail
  dsimp only
  have hcounted := countRecord_leads f.kind s.runClock f.socket s
  split
  · exact hcounted.trans (actAndLog_leads f _ _)
  · exact hcounted.trans (actAndLog_leads f _ _)
  · exact hcounted.trans (actAndLog_leads f _ _)
  all_goals exact leads_refl s

/-! ### Temperature samples (R72 to R80) -/

/-- The control state of a live socket changes. -/
theorem modHeat_leads {k : Socket} {s : State} (hl : s.live k = true) (f : HeatControl → HeatControl) :
    Leads s (s.modHeat k f) := by
  refine leads_heat rfl fun j hj hc => ?_
  have hjk : j ≠ k := fun h => by rw [h, hl] at hj; cases hj
  unfold Cold
  rw [State.modHeat_heat, look_put_other _ _ _ _ hjk]
  exact hc

/-- A control state changes, and not its demand. -/
theorem modHeat_leads_demand {k : Socket} {s : State} {f : HeatControl → HeatControl}
    (h : (f (look s.heat k)).demand = (look s.heat k).demand) : Leads s (s.modHeat k f) := by
  refine leads_heat rfl fun j _ hc => ?_
  obtain ⟨hd, hrest⟩ := hc
  refine ⟨?_, hrest⟩
  rw [State.modHeat_heat, look_put]
  split
  · subst_vars
    rw [h, hd]
  · exact hd

theorem invalidSample_leads (k : Socket) (code : Nat) (s : State) :
    Leads s (invalidSample k code s) := by
  unfold invalidSample
  dsimp only
  have hzero := zeroHeat_leads k s
  split
  · exact hzero.trans (modHeat_leads_demand rfl)
  · exact (hzero.trans (modHeat_leads_demand rfl)).trans (takeFail_leads _ _)

theorem overLimit_leads (k : Socket) (t : Int) (s : State) : Leads s (overLimit k t s) :=
  (zeroHeat_leads k s).trans (takeFail_leads _ _)

theorem live_modHeat (s : State) (k : Socket) (f : HeatControl → HeatControl) (j : Socket) :
    (s.modHeat k f).live j = s.live j := rfl

theorem validSample_leads {k : Socket} {s : State} (hl : s.live k = true) (t : Int) :
    Leads s (validSample k t s) := by
  unfold validSample
  dsimp only
  have hcounted : Leads s (s.modHeat k fun c => { c with invalid := 0 }) := modHeat_leads_demand rfl
  split
  · exact hcounted.trans (overLimit_leads k t _)
  · have hdone := fun f => hcounted.trans
      (modHeat_leads (s := s.modHeat k fun c => { c with invalid := 0 }) hl f)
    split
    · exact (hdone _).trans (takeFail_leads _ _)
    · exact hdone _

theorem heaterSample_leads (k : Socket) (x : Sample) (s : State) : Leads s (heaterSample k x s) := by
  have hlive : (s.sock k).state = .starting ∨ (s.sock k).state = .stressing → s.live k = true := by
    rw [live_eq]
    rintro (h | h) <;> rw [h] <;> rfl
  unfold heaterSample
  split
  · rename_i h
    split
    · exact validSample_leads (hlive (.inl h)) _
    · exact invalidSample_leads k _ s
  · rename_i h
    split
    · exact validSample_leads (hlive (.inr h)) _
    · exact invalidSample_leads k _ s
  · split
    · split
      · exact overLimit_leads k _ s
      · exact leads_refl s
    · exact leads_refl s
  all_goals exact leads_refl s

/-! ### Bursts (R107 to R112) -/

theorem leads_burst {s t : State} (h : BurstOnly s t)
    (hopen : ∀ k, windowOf k t ≠ none → windowOf k s ≠ none ∨ (s.sock k).state = .stressing)
    (hbus : BusOk s → BusOk t) : Leads s t := by
  have hview : view t = { view s with
      windowed := fun k => windowOf k t ≠ none, busOk := BusOk t } := (congrArg view h.eq :)
  rw [Leads, hview]
  exact (Relation.ReflTransGen.single (Move.windows (v := view s) _ hopen)).tail (Move.bus _ hbus)

/-- A slot record changes, and is not ACTIVE before or after. -/
theorem busOk_modSlot {s : State} {i : SlotId} {f : Slot → Slot} (h : BusOk s)
    (hbefore : (s.slot i).state ≠ .active) (hafter : (f (s.slot i)).state ≠ .active) :
    BusOk (s.modSlot i f) := by
  intro j
  show ((look (put s.slots i (f (look s.slots i))) j).state = .active) ↔ s.bus.map (·.slot) = some j
  rw [look_put]
  split
  · subst_vars
    exact iff_of_false hafter fun hb => hbefore ((h j).mpr hb)
  · exact h j

theorem windowOf_modSlot (s : State) (i : SlotId) (f : Slot → Slot) (k : Socket) :
    windowOf k (s.modSlot i f) = windowOf k s := rfl

/-- The arbiter starts or skips a PENDING slot on a free bus. -/
theorem startSlot_leads {i : SlotId} {s : State} (hb : s.bus = none) (hp : (s.slot i).state = .pending) :
    Leads s (startSlot i s) := by
  have hfree : BusOk s → ∀ j, (s.slot j).state ≠ .active := by
    intro h j hj
    have := (h j).mp hj
    rw [hb] at this
    cases this
  by_cases hreach : ∃ k, burstReaches s i k = true
  · refine leads_burst (startSlot_only i s) (fun k hk => ?_) fun hok j => ?_
    · rw [startSlot_start hreach] at hk
      unfold windowOf at hk
      rw [look_tab16] at hk
      by_cases hr : burstReaches s i k = true
      · unfold burstReaches at hr
        rw [Bool.and_eq_true, decide_eq_true_eq] at hr
        exact .inr hr.2
      · rw [if_neg hr] at hk
        exact .inl hk
    · rw [startSlot_start hreach]
      show (look (put s.slots i _) j).state = .active ↔ some i = some j
      rw [look_put]
      split
      · subst_vars
        exact iff_of_true rfl rfl
      · rename_i hji
        refine iff_of_false (hfree hok j) fun h => hji ?_
        exact (Option.some.inj h).symm
  · have hskip : ∀ k, burstReaches s i k = false := fun k =>
      Bool.eq_false_iff.mpr fun hk => hreach ⟨k, hk⟩
    rw [startSlot_skip hskip]
    refine leads_bus rfl fun hok => ?_
    exact busOk_modSlot (f := skippedSlot) hok (by rw [hp]; decide)
      (by decide : SlotState.idle ≠ .active)

theorem arbitrate_leads (l : List SlotId) (s : State) : Leads s (arbitrate l s) := by
  induction l generalizing s with
  | nil => exact leads_refl s
  | cons i rest ih =>
    unfold arbitrate
    split
    · rename_i h
      exact (startSlot_leads h.1 h.2).trans (ih _)
    · exact ih _

theorem arbiterDecision_leads (s : State) : Leads s (arbiterDecision s) := by
  unfold arbiterDecision
  split
  · exact arbitrate_leads _ s
  · exact leads_refl s

/-- Slot records change, and the same ones are ACTIVE. -/
theorem leads_slots {s t : State} (hview : view t = { view s with busOk := BusOk t })
    (hbus : t.bus = s.bus) (h : ∀ i, (t.slot i).state = .active ↔ (s.slot i).state = .active) :
    Leads s t := by
  refine leads_bus hview fun hok i => ?_
  rw [h i, hok i, hbus]

theorem expirySlot_active (x : TimerId) (y : Slot) :
    (expirySlot x y).state = .active ↔ y.state = .active := by
  unfold expirySlot
  split
  · split <;> rename_i h <;> simp [dispatchRecord, h]
  · exact Iff.rfl

theorem loadTimer_view (x : TimerId) (s : State) : view (loadTimer x s) = view s := by
  rw [loadTimer, setTimer_eq]
  rfl

theorem expireTimer_leads (x : TimerId) (s : State) : Leads s (expireTimer x s) := by
  unfold expireTimer
  split
  · refine Leads.trans ?_ (arbiterDecision_leads _)
    refine Leads.trans (leads_slots (t := { s with slots := tab8 fun i => expirySlot x (look s.slots i) })
      rfl rfl fun i => ?_) (leads_of_view (loadTimer_view x _))
    have hslot : look (tab8 fun i => expirySlot x (look s.slots i)) i = expirySlot x (s.slot i) :=
      look_tab8 _ i
    have hactive := expirySlot_active x (s.slot i)
    rw [← hslot] at hactive
    exact hactive
  · exact leads_refl s
  · exact leads_refl s

/-! ### The end of a burst (R111, R112) -/

theorem confirmWindow_leads (k : Socket) (s : State) : Leads s (confirmWindow k s) := by
  refine leads_windows (by rw [confirmWindow_eq]; rfl) fun j hj => .inl fun hnone => hj ?_
  rw [confirmWindow_eq]
  unfold windowOf at hnone ⊢
  rw [look_put]
  split
  · subst_vars
    simp only [hnone, Option.bind_none]
  · exact hnone

theorem withdrawWindow_leads (k : Socket) (s : State) : Leads s (withdrawWindow k s) := by
  refine leads_windows (by rw [withdrawWindow_eq]; rfl) fun j hj => .inl fun hnone => hj ?_
  rw [withdrawWindow_eq]
  unfold windowOf at hnone ⊢
  rw [look_put]
  split
  · subst_vars
    simp only [hnone, Option.bind_none]
  · exact hnone

theorem forSockets_leads {f : Socket → State → State} (hf : ∀ k s, Leads s (f k s)) (s : State) :
    Leads s (forSockets f s) :=
  forSockets_rel Leads leads_refl (fun _ _ _ => Leads.trans) f hf s

theorem forSet_leads (m : Half) {f : Socket → State → State} (hf : ∀ k s, Leads s (f k s)) (s : State) :
    Leads s (forSet m f s) := by
  refine forSockets_leads (fun k t => ?_) s
  split
  · exact hf k t
  · exact leads_refl t

/-- What keeps the bus for each socket keeps it for a set of them. -/
theorem forSet_bus (m : Half) {f : Socket → State → State} (hf : ∀ k s, (f k s).bus = s.bus)
    (s : State) : (forSet m f s).bus = s.bus := by
  refine forSockets_rel (fun s t => t.bus = s.bus) (fun _ => rfl) (fun _ _ _ h g => g.trans h) _
    (fun k t => ?_) s
  split
  · exact hf k t
  · rfl

theorem confirmWindow_bus (k : Socket) (s : State) : (confirmWindow k s).bus = s.bus := by
  rw [confirmWindow_eq]

theorem withdrawWindow_bus (k : Socket) (s : State) : (withdrawWindow k s).bus = s.bus := by
  rw [withdrawWindow_eq]

/-- The slot of the burst leaves ACTIVE, and the bus is free. -/
theorem closeSlot_leads {b : Burst} {s : State} (hb : s.bus = some b) {f : Slot → Slot}
    (hf : (f (s.slot b.slot)).state ≠ .active) : Leads s (freeBus (s.modSlot b.slot f)) := by
  refine leads_bus rfl fun hok i => ?_
  show (look (put s.slots b.slot (f (look s.slots b.slot))) i).state = .active ↔ none = some i
  refine iff_of_false ?_ (by simp)
  rw [look_put]
  split
  · exact hf
  · rename_i hi
    intro ha
    have hslot := (hok i).mp ha
    rw [hb] at hslot
    exact hi (Option.some.inj hslot).symm

theorem errorRecord_closed (m : Mode) (x : Slot) : (errorRecord m x).state ≠ .active := by
  unfold errorRecord
  dsimp only
  split
  · exact (by decide : SlotState.pending ≠ .active)
  · exact (by decide : SlotState.idle ≠ .active)

theorem endBurst_leads (d : Bool) (s : State) : Leads s (endBurst d s) := by
  unfold endBurst
  split
  · exact leads_refl s
  · rename_i b hb
    refine Leads.trans ?_ (arbiterDecision_leads _)
    unfold judgeBurst
    split
    · have hbus := forSet_bus b.mask confirmWindow_bus s
      exact (forSet_leads b.mask confirmWindow_leads s).trans
        (closeSlot_leads (hbus.trans hb) (by decide : SlotState.idle ≠ .active))
    · have hbus := forSet_bus b.mask withdrawWindow_bus s
      exact (forSet_leads b.mask withdrawWindow_leads s).trans
        (closeSlot_leads (hbus.trans hb) (errorRecord_closed _ _))

/-! ### The supply account (R89 to R96) -/

/-- An allotment gives a duty to live sockets alone. -/
theorem allot_leads (s : State) : Leads s (allot s) := by
  refine leads_heat rfl fun k hl hc => ?_
  obtain ⟨hd, -, hrest⟩ := hc
  refine ⟨hd, ?_, hrest⟩
  have hdemand : demandOf s k = 0 := by
    rw [demandOf, countedHeat, hl]
    rfl
  show look (tab16 fun k => dutyAt s _ k) k = 0
  rw [look_tab16, dutyAt, hdemand, Nat.zero_mul, Nat.zero_div]

theorem overload_view (n d : Nat) (s : State) :
    view { s with supply := { s.supply with overload := n }, draws := d } = view s := rfl

theorem orders_view (o : List StopOrder) (s : State) : view { s with orders := o } = view s := rfl

theorem roundEnd_leads (s : State) : Leads s (roundEnd s) := by
  unfold roundEnd
  dsimp only
  have hallot := allot_leads s
  generalize allot s = a at hallot ⊢
  have hcounted : ∀ n d : Nat, Leads s
      { a with supply := { a.supply with overload := n }, draws := d } := fun n d =>
    hallot.trans (leads_of_view (overload_view n d a))
  split
  · exact (hcounted _ a.draws).trans (grantDecision_leads _)
  · split
    · exact ((hcounted _ (a.draws + 1)).trans (takeOrder_leads _ _)).trans (grantDecision_leads _)
    · exact ((hcounted _ (a.draws + 1)).trans (grantDecision_leads _)).trans
        (leads_of_view (orders_view _ _))

end Sys2Proof.Machine
end

section
/-! SUPPORT. Every command but TICK, as moves. -/

namespace Sys2Proof.Machine

/-! ### Answers -/

theorem reply_leads {s t : State} (h : Leads s t) (r : Result) (p : List Byte) : Leads s (t.reply r p) :=
  h.trans (leads_of_view rfl)

theorem refuse_leads (s : State) (r : Result) : Leads s (s.refuse r) := leads_of_view rfl

theorem draw_leads {s t : State} (h : Leads s t) : Leads s t.draw := h.trans (leads_of_view rfl)

theorem replySocket_leads {s t : State} (h : Leads s t) (k : Socket) (r : Result) :
    Leads s (replySocket k r t) := reply_leads h r _

theorem replyMode_leads {s t : State} (h : Leads s t) : Leads s (replyMode t) := reply_leads h .ok _

theorem answerMode_leads (b : Bool) {s t : State} (h : Leads s t) : Leads s (answerMode b t) := by
  unfold answerMode
  split
  · exact h.trans (leads_of_view rfl)
  · exact replyMode_leads h

theorem refuseMode_leads (b : Bool) (s : State) : Leads s (refuseMode b s) := by
  unfold refuseMode
  split
  · exact leads_of_view rfl
  · exact refuse_leads s _

/-! ### SAFE (R159) -/

theorem safeResolved_kept (bin hold : Nat) (r : SocketRecord) :
    busyIn (safeResolved bin hold r).state = false ∧ (safeResolved bin hold r).credit = r.credit := by
  have hcases : ∀ x, r.state = x →
      busyIn (safeResolved bin hold r).state = false ∧ (safeResolved bin hold r).credit = r.credit := by
    intro x hx
    unfold safeResolved
    split <;> rename_i h <;> first | exact ⟨rfl, rfl⟩ | exact ⟨by rw [h]; rfl, rfl⟩
  exact hcases _ rfl

/-- No rail rises while every rail is OFF. -/
theorem risingCount_zero {s : State} (h : ∀ k, bothOff k s = true) : s.risingCount = 0 := by
  rw [risingCount_eq_sum, ← sumSockets_zero]
  refine sumSockets_congr fun k => ?_
  have hoff := bothOff_iff.mp (h k)
  rw [risingOf_eq, risesIn, risesIn, hoff, hoff]
  rfl

/-- The entry to SAFE from `u` is one move from any `s` that differs from `u` at most in the attach state. -/
theorem entersSafe_leads {c : SafeCause} {s u t : State} (h : EntersSafe c u t)
    (hview : view u = { view s with attach := u.board.attach }) : Leads s t := by
  obtain ⟨hmode, -, -, hrails, hsupply, hduty, hbus, -, hslots, hsocks, hheat, hmon, hframe⟩ := h
  have hoff : ∀ k, AtRest k t := by
    intro k
    obtain ⟨hr, hx⟩ := hrails k
    refine ⟨bothOff_iff.mpr fun r => ?_, hx⟩
    rw [State.rail, hr]
    cases r <;> rfl
  have hus : ∀ k, (u.sock k).state = (s.sock k).state := fun k =>
    congrFun (congrArg View.state hview) k
  have hlive : ∀ k, u.live k = liveIn (s.sock k).state := fun k => by rw [live_eq, hus k]
  have hcredit : (fun k => (t.sock k).credit) = (view s).credit := by
    funext k
    rw [hsocks k, (safeResolved_kept _ _ _).2]
    exact congrFun (congrArg View.credit hview) k
  have hidle : BusOk t := by
    intro i
    rw [hbus, hslots i]
    refine iff_of_false ?_ (by simp)
    split
    · rename_i he
      rw [he]
      decide
    · exact (by decide : SlotState.idle ≠ .active)
  have hpending : t.pending = s.pending :=
    (congrArg State.pending hframe :).trans (congrArg View.pending hview :)
  have hlimit : t.board.host.inrushLimit = s.board.host.inrushLimit :=
    (congrArg (fun x : State => x.board.host.inrushLimit) hframe :).trans (congrArg View.limit hview :)
  have hattach : t.board.attach = u.board.attach :=
    (congrArg (fun x : State => x.board.attach) hframe :)
  have hlog : LogOk t = LogOk s :=
    (congrArg LogOk hframe :).trans (congrArg View.logOk hview :)
  have hpolicy : PolicyOk t = PolicyOk s :=
    (congrArg PolicyOk hframe :).trans (congrArg View.policyOk hview :)
  have ht : view t = { view s with
      mode := .safe, attach := u.board.attach, state := fun k => (t.sock k).state
      atRest := fun k => AtRest k t, rising := 0, cold := fun k => Cold k t
      windowed := fun k => windowOf k t ≠ none, busOk := BusOk t } :=
    View.ext hpending hmode hattach hlimit rfl hcredit rfl (risingCount_zero fun k => (hoff k).1) rfl rfl
      rfl hlog hpolicy
  rw [Leads, ht]
  refine .single (.safe _ _ _ _ _ _ (fun k => ?_) hoff (fun k hk => ?_) (fun k hk => ?_) fun _ => hidle)
  · show busyIn (t.sock k).state = false
    rw [hsocks k]
    exact (safeResolved_kept _ _ _).1
  · obtain ⟨hactive, hon, -⟩ := hduty k
    refine ⟨?_, by rw [hsupply]; simp [Supply.reset], hactive, hon⟩
    rw [hheat k, hlive k]
    split
    · rfl
    · rename_i hl
      have hcold : Cold k s := hk (Bool.eq_false_iff.mpr hl)
      have hsame : Cold k u = Cold k s := congrFun (congrArg View.cold hview) k
      rw [← hsame] at hcold
      exact hcold.1
  · unfold windowOf at hk
    rw [hmon k, hlive k] at hk
    split at hk
    · exact absurd rfl hk
    · rename_i hl
      refine ⟨?_, Bool.eq_false_iff.mpr hl⟩
      have hsame : (windowOf k u ≠ none) = (windowOf k s ≠ none) :=
        congrFun (congrArg View.windowed hview) k
      exact hsame.mp hk

theorem enterSafe_leads (c : SafeCause) (s : State) : Leads s (enterSafe c s) := by
  by_cases h : s.mode = .safe
  · rw [enterSafe_safe h]
    exact leads_refl s
  · exact entersSafe_leads (enterSafe_spec h) rfl

/-! ### The board table (R21 to R33) -/

/-- A change of the monitors that leaves the windows is none of the view. -/
theorem mon_view {s : State} (m : Tab Monitor) (h : ∀ k, (look m k).window = (look s.mon k).window) :
    view { s with mon := m } = view s := by
  refine View.ext rfl rfl rfl rfl rfl rfl rfl rfl rfl ?_ rfl rfl rfl
  funext k
  exact congrArg (· ≠ none) (h k)

theorem dropLevels_view (s : State) : view (dropLevels s) = view s :=
  mon_view _ fun k => by rw [look_tab16]

theorem resetSupply_leads (s : State) : Leads s (resetSupply s) := by
  refine leads_heat rfl fun k _ hc => ?_
  obtain ⟨hd, -, hrest⟩ := hc
  exact ⟨hd, look_tab16 _ k, hrest⟩

theorem leaveAttached_leads (s : State) : Leads s (leaveAttached s) := by
  unfold leaveAttached
  split
  · have hscan : Leads s (stopScan s) := leads_of_view rfl
    exact ((hscan.trans (resetSupply_leads _)).trans (leads_of_view (dropLevels_view _))).trans
      (leads_of_view rfl)
  · exact leads_refl s

theorem leaveAttached_mode (s : State) : (leaveAttached s).mode = s.mode := by
  unfold leaveAttached
  split
  · rfl
  · rfl

theorem attach_leads (s : State) : Leads s (attach s) := by
  unfold attach
  split
  · exact refuse_leads s _
  · rename_i hmode
    split
    · exact refuse_leads s _
    · split
      · exact refuse_leads s _
      · refine reply_leads ((leaveAttached_leads s).trans ?_) _ _
        refine leads_attach rfl fun hrun => ?_
        rw [leaveAttached_mode, not_not.mp hmode] at hrun
        cases hrun

theorem boardSeated_leads (s : State) : Leads s (boardSeated s) := by
  unfold boardSeated
  split
  · rename_i h
    exact leads_attach rfl fun _ ha => absurd (h.symm.trans ha) (by decide)
  · exact leads_refl s

theorem removalMode_leads {s u : State} (hview : view u = { view s with attach := u.board.attach }) :
    Leads s (removalMode u) := by
  have hmode : u.mode = s.mode := congrArg View.mode hview
  have hsafe : u.mode ≠ .safe → Leads s (enterSafe .detach u) := fun h =>
    entersSafe_leads (enterSafe_spec h) hview
  have hquiet : runningMode u.mode = false → Leads s u := fun h =>
    leads_attach hview fun hr => absurd (hr.symm.trans (hmode ▸ h)) (by decide)
  unfold removalMode
  split
  · rename_i h; exact hsafe (by rw [h]; decide)
  · rename_i h; exact hsafe (by rw [h]; decide)
  · rename_i h; exact hsafe (by rw [h]; decide)
  · rename_i h; exact hquiet (by rw [h]; rfl)
  · rename_i h; exact hquiet (by rw [h]; rfl)

theorem boardRemoved_leads (s : State) : Leads s (boardRemoved s) := by
  unfold boardRemoved
  split
  · exact leads_refl s
  · exact (leaveAttached_leads s).trans (removalMode_leads rfl)

theorem failRead_leads (r : ReadFailure) (s : State) : Leads s (failRead r s) := by
  unfold failRead
  split
  · rename_i h
    exact leads_attach rfl fun _ ha => absurd (h.symm.trans ha) (by decide)
  · exact leads_refl s

theorem readFailsCheck_leads (image : List Byte) (s : State) : Leads s (readFailsCheck image s) := by
  unfold readFailsCheck
  split
  · exact leads_refl s
  · exact failRead_leads _ s
  · exact leads_refl s

/-- The records of a new board are outside runs, without credit. -/
theorem newBoard_leads (x : BoardRecord) {s : State} (ha : s.board.attach ≠ .attached) :
    Leads s (newBoard x s) := by
  have hsockets : Leads s { s with sockets := tab16 fun k => newBoardRecord x k (look s.sockets k) } := by
    refine leads_settle _ (fun k => .inr ⟨?_, .inr (.inl ha)⟩) fun k => .inr ?_
    · rw [look_tab16]
      show busyIn (if inSet x.population k then .idle else .empty) = false
      split <;> rfl
    · rw [look_tab16]
      rfl
  have hheat : ∀ u : State, Leads u { u with heat := tab16 fun _ => .reset } := fun u =>
    leads_heat rfl fun k _ hc => ⟨by rw [look_tab16]; rfl, hc.2⟩
  have hlog : ∀ u : State, Leads u { u with log := [], tickResult := tab16 fun _ => none } := fun u =>
    leads_log rfl fun _ => ⟨Nat.zero_le _, fun _ he => nomatch he⟩
  exact (hsockets.trans (hheat _)).trans (hlog _)

theorem tableInstalled_leads (x : BoardRecord) (s : State) : Leads s (tableInstalled x s) :=
  leads_attach rfl fun _ _ => rfl

theorem installLevels_view (fresh : Bool) (mon alm : Half) (s : State) :
    view (installLevels fresh mon alm s) = view s :=
  mon_view _ fun k => by rw [look_tab16]

/-- The board table is taken after the records of a new board as well as before them. -/
theorem newBoard_tableInstalled (x : BoardRecord) (s : State) :
    newBoard x (tableInstalled x s) = tableInstalled x (newBoard x s) := rfl

theorem installRecord_leads (x : BoardRecord) (mon alm : Half) {s : State}
    (ha : s.board.attach ≠ .attached) : Leads s (installRecord x mon alm s) := by
  unfold installRecord
  refine Leads.trans ?_ (leads_of_view (installLevels_view _ mon alm _))
  split
  · rw [newBoard_tableInstalled]
    exact (newBoard_leads x ha).trans (tableInstalled_leads x _)
  · exact tableInstalled_leads x s

theorem readSucceeds_leads (image : List Byte) (mon alm : Half) (s : State) :
    Leads s (readSucceeds image mon alm s) := by
  unfold readSucceeds
  split
  · rename_i h _
    exact installRecord_leads _ mon alm (by rw [h]; decide)
  · exact leads_refl s

/-- Writing a host-set field moves at most the inrush limit, in CONFIG. -/
theorem writeHost_leads (v : Int) (f : Field) {s : State} (hmode : s.mode = .config) :
    Leads s { s with board := { s.board with host := writeHost s.board.host v f } } := by
  have hview : view { s with board := { s.board with host := writeHost s.board.host v f } }
      = { view s with limit := (writeHost s.board.host v f).inrushLimit } := rfl
  rw [Leads, hview]
  exact .single (.limit _ hmode fun h => risingCount_zero fun k => (h k).1)

theorem clampSetpoints_leads (r : RailKind) (s : State) : Leads s (clampSetpoints r s) :=
  leads_records _ (fun k => by rw [look_tab16]; rfl) fun k => .inl (by rw [look_tab16]; rfl)

theorem clampNarrowed_leads (r : RailKind) (b s : State) : Leads s (clampNarrowed r b s) := by
  unfold clampNarrowed
  split
  · exact clampSetpoints_leads r s
  · exact leads_refl s

theorem installOverride_leads (f : Field) (v : Int) (s : State) : Leads s (installOverride f v s) := by
  have hwritten : Leads s { s with board := { s.board with overrides := writeOverride s v f } } :=
    leads_of_view rfl
  exact (hwritten.trans (clampNarrowed_leads .core s _)).trans (clampNarrowed_leads .aux s _)

theorem setField_leads (code index : Byte) (f : Field) (v : Int) {s : State} (hmode : s.mode = .config) :
    Leads s (setField code index f v s) := by
  unfold setField
  split
  · split
    · exact refuse_leads s _
    · exact reply_leads (writeHost_leads v f hmode) _ _
  · split
    · exact refuse_leads s _
    · split
      · exact refuse_leads s _
      · exact reply_leads (installOverride_leads f v s) _ _
  · exact refuse_leads s _

theorem setBoardField_leads (code index : Byte) (value : Word) (s : State) :
    Leads s (setBoardField code index value s) := by
  unfold setBoardField
  split
  · exact refuse_leads s _
  · rename_i hmode
    split
    · exact refuse_leads s _
    · split
      · exact refuse_leads s _
      · exact setField_leads code index _ _ (not_not.mp hmode)

theorem getBoardField_leads (code index : Byte) (s : State) : Leads s (getBoardField code index s) := by
  unfold getBoardField
  split
  · exact refuse_leads s _
  · exact draw_leads (reply_leads (leads_refl s) _ _)

/-! ### Profiles and the policy table -/

theorem profiles_view (p : Vector (List Step) 4) (s : State) :
    view { s with profiles := p } = view s := rfl

theorem profileReply_leads {s t : State} (h : Leads s t) (p : ProfileId) : Leads s (profileReply p t) :=
  reply_leads h .ok _

theorem setProfile_leads (profile : Byte) (steps : List RawStep) (s : State) :
    Leads s (setProfile profile steps s) := by
  unfold setProfile
  split
  · exact refuse_leads s _
  · split
    · exact refuse_leads s _
    · split
      · exact refuse_leads s _
      · split
        · exact refuse_leads s _
        · exact profileReply_leads (leads_of_view (profiles_view _ s)) _

theorem getProfile_leads (profile : Byte) (s : State) : Leads s (getProfile profile s) := by
  unfold getProfile
  split
  · exact refuse_leads s _
  · exact reply_leads (leads_refl s) _ _

theorem kindIndex_injective {f g : FailKind} (h : kindIndex f = kindIndex g) : f = g := by
  cases f <;> cases g <;> first | rfl | cases h

/-- An entry within R134's ranges is, once adjusted, within R133's. -/
theorem adjustPolicy_inRange (f : FailKind) {e : PolicyEntry} (ht : 1 ≤ e.threshold)
    (ht' : e.threshold ≤ 255) (hb : 2 ≤ e.bin) (hb' : e.bin ≤ 15) :
    let x := adjustPolicy f e
    1 ≤ x.threshold ∧ x.threshold ≤ 255 ∧ 2 ≤ x.bin ∧ x.bin ≤ 15
      ∧ (f = .overcurrent ∨ f = .overtemp → x.action ≠ .count ∧ x.threshold = 1) := by
  by_cases hf : f = .overcurrent ∨ f = .overtemp
  · have hstrict : adjustPolicy f e = ⟨if e.action = .retire then .retire else .hold, 1, e.bin⟩ := by
      obtain ⟨a, _, _⟩ := e
      rcases hf with rfl | rfl <;> cases a <;> rfl
    rw [hstrict]
    refine ⟨Nat.le_refl 1, (by decide : 1 ≤ 255), hb, hb', fun _ => ⟨?_, rfl⟩⟩
    dsimp only
    split <;> decide
  · have hsame : adjustPolicy f e = e := by
      cases f <;> first | rfl | exact absurd (.inl rfl) hf | exact absurd (.inr rfl) hf
    rw [hsame]
    exact ⟨ht, ht', hb, hb', fun h => absurd h hf⟩

/-- An entry in its ranges may replace any other. -/
theorem policyOk_put {s : State} {f : FailKind} {e : PolicyEntry} (hok : PolicyOk s)
    (he : 1 ≤ e.threshold ∧ e.threshold ≤ 255 ∧ 2 ≤ e.bin ∧ e.bin ≤ 15
      ∧ (f = .overcurrent ∨ f = .overtemp → e.action ≠ .count ∧ e.threshold = 1)) :
    PolicyOk { s with policy := put s.policy (kindIndex f) e } := by
  intro g
  dsimp only
  rw [look_put]
  split
  · rename_i hg
    rw [kindIndex_injective hg]
    exact he
  · exact hok g

theorem policyPut_leads {f : FailKind} {e : PolicyEntry} (s : State)
    (he : 1 ≤ e.threshold ∧ e.threshold ≤ 255 ∧ 2 ≤ e.bin ∧ e.bin ≤ 15
      ∧ (f = .overcurrent ∨ f = .overtemp → e.action ≠ .count ∧ e.threshold = 1)) :
    Leads s { s with policy := put s.policy (kindIndex f) e } :=
  leads_policy rfl fun hok => policyOk_put hok he

theorem setPolicy_leads (kind action threshold bin : Byte) (s : State) :
    Leads s (setPolicy kind action threshold bin s) := by
  unfold setPolicy
  split
  · exact refuse_leads s _
  · split
    · rename_i f a _ _
      split
      · exact refuse_leads s _
      · rename_i ht
        split
        · exact refuse_leads s _
        · rename_i hb
          have hlt := threshold.isLt
          have hrange := adjustPolicy_inRange f (e := ⟨a, threshold.toNat, bin.toNat⟩)
            (Nat.one_le_iff_ne_zero.mpr ht) (by dsimp only; omega) (by dsimp only; omega)
            (by dsimp only; omega)
          exact reply_leads (policyPut_leads s hrange) _ _
    · exact refuse_leads s _

theorem readFails_leads (n : Byte) (s : State) : Leads s (readFails n s) := by
  unfold readFails
  split
  · exact refuse_leads s _
  · refine reply_leads ?_ _ _
    refine leads_log rfl fun hok => ?_
    obtain ⟨hlen, hrep⟩ := hok
    refine ⟨?_, fun e he => hrep e (List.mem_of_mem_drop he)⟩
    show (s.log.drop n.toNat).length ≤ 64
    rw [List.length_drop]
    omega

/-! ### Socket requests (R12 to R17) -/

theorem socketRequest_leads (n : Byte) (accepted : Bool) {body : Socket → State → State} {s : State}
    (h : accepted = true → ∀ k, (s.sock k).state ≠ .empty → Leads s (body k s)) :
    Leads s (socketRequest n accepted body s) := by
  unfold socketRequest
  split
  · exact refuse_leads s _
  · rename_i k _
    split
    · exact refuse_leads s _
    · split
      · exact refuse_leads s _
      · split
        · exact refuse_leads s _
        · rename_i he
          split
          · exact refuse_leads s _
          · rename_i ha
            exact h (Bool.eq_true_of_not_eq_false ha) k he

/-- Rails whose states stand, whatever else of them changes, leave the view as it is. -/
theorem writeRail_leads {k : Socket} {r : RailKind} {x : Rail} {s : State}
    (h : x.state = (s.rail k r).state) : Leads s (writeRail k r x s) := by
  have hrail : ∀ j q, ((writeRail k r x s).rail j q).state = (s.rail j q).state := by
    intro j q
    have hput : (writeRail k r x s).rail j q = if j = k ∧ q = r then x else s.rail j q :=
      enterRail_rail k r x s j q
    rw [hput]
    split
    · rename_i hjq
      rw [hjq.1, hjq.2, h]
    · rfl
  refine leads_rails (writeRail_only k r x s) (fun j _ hj => ⟨bothOff_iff.mpr fun q => ?_, hj.2⟩)
    fun hok => ?_
  · rw [hrail, bothOff_iff.mp hj.1]
  · have hcount : (writeRail k r x s).risingCount = s.risingCount := by
      rw [risingCount_eq_sum, risingCount_eq_sum]
      refine sumSockets_congr fun j => ?_
      rw [risingOf_eq, risingOf_eq, risesIn, risesIn, risesIn, risesIn, hrail, hrail]
    unfold RisingOk at hok ⊢
    rw [hcount]
    exact hok

theorem applySetpoint_leads (k : Socket) (r : RailKind) (s : State) : Leads s (applySetpoint k r s) := by
  unfold applySetpoint
  split
  · exact writeRail_leads rfl
  · exact leads_refl s

theorem setParamsBody_leads (v : ParamValues) (k : Socket) (s : State) :
    Leads s (setParamsBody v k s) := by
  unfold setParamsBody
  split
  · split
    · exact refuse_leads s _
    · refine reply_leads ?_ _ _
      exact ((leads_modSock s k _ rfl rfl).trans (applySetpoint_leads k .core _)).trans
        (applySetpoint_leads k .aux _)
  · exact refuse_leads s _

theorem busy_of_state {s : State} {k : Socket} {x : SocketState} (h : (s.sock k).state = x) :
    s.busy k = busyIn x := by
  rw [busy_eq, h]

theorem startSocketBody_leads (k : Socket) {s : State} (hmode : s.mode = .run) :
    Leads s (startSocketBody k s) := by
  unfold startSocketBody
  split
  · rename_i h
    exact replySocket_leads (enterStarting_leads (by rw [hmode]; rfl) (busy_of_state h)) k _
  · exact replySocket_leads (leads_refl s) k _

theorem stopSocketBody_leads (k : Socket) (s : State) : Leads s (stopSocketBody k s) := by
  have hnone := fun r => replySocket_leads (leads_refl s) k r
  unfold stopSocketBody
  split
  · exact replySocket_leads (takeOrder_leads _ s) k _
  · exact replySocket_leads (takeOrder_leads _ s) k _
  · exact replySocket_leads (takeOrder_leads _ s) k _
  · rename_i h
    exact replySocket_leads (leads_settleOne rfl (.inl (busy_of_state h)) (.inl rfl)) k _
  all_goals exact hnone _

theorem useRetry_leads {k : Socket} {s : State} (hmode : runningMode s.mode = true)
    (hk : s.busy k = false) : Leads s (useRetry k s) := by
  have hbusy : (s.modSock k fun r => { r with retries := r.retries + 1 }).busy k = false := by
    rw [busy_eq, sock_modSock, if_pos rfl, ← hk, busy_eq]
  exact (leads_modSock s k _ rfl rfl).trans (enterStarting_leads hmode hbusy)

theorem retrySocketBody_leads (k : Socket) {s : State} (hmode : s.mode = .run) :
    Leads s (retrySocketBody k s) := by
  have hrun : runningMode s.mode = true := by rw [hmode]; rfl
  have hnone := fun r => replySocket_leads (leads_refl s) k r
  unfold retrySocketBody
  split
  · rename_i h
    have hbusy : s.busy k = false := busy_of_state h
    split
    · split
      · exact replySocket_leads (useRetry_leads hrun hbusy) k _
      · exact hnone _
    · exact replySocket_leads (enterStarting_leads hrun hbusy) k _
    · exact hnone _
    · exact hnone _
  · exact hnone _

theorem clearSocketBody_leads (k : Socket) (s : State) : Leads s (clearSocketBody k s) := by
  unfold clearSocketBody
  split
  · exact replySocket_leads (leads_refl s) k _
  · rename_i h
    refine replySocket_leads (Leads.trans ?_ (leads_of_view rfl)) k _
    exact leads_settleOne rfl (.inl (Bool.eq_false_iff.mpr h)) (.inr rfl)

theorem getSocket_leads (n : Byte) (s : State) : Leads s (getSocket n s) := by
  unfold getSocket
  split
  · exact refuse_leads s _
  · split
    · exact refuse_leads s _
    · exact draw_leads (reply_leads (leads_refl s) _ _)

/-! ### Completions and expiries (R5, R9, R11) -/

theorem completeUp_leads (k : Socket) (s : State) : Leads s (completeUp k s) := by
  unfold completeUp
  split
  · rename_i h
    have hcredit : (fun j => ((s.modSock k fun r => { r with state := .stressing }).sock j).credit)
        = (view s).credit := by
      funext j
      rw [sock_modSock]
      split
      · subst_vars
        rfl
      · rfl
    have hview : view (s.modSock k fun r => { r with state := .stressing }) = { view s with
        state := fun j => ((s.modSock k fun r => { r with state := .stressing }).sock j).state } :=
      View.ext rfl rfl rfl rfl rfl hcredit rfl rfl rfl rfl rfl rfl rfl
    rw [Leads, hview]
    refine .single (.stresses _ fun j => ?_)
    rw [sock_modSock]
    split
    · subst_vars
      exact .inr ⟨h.1, rfl⟩
    · exact .inl rfl
  · exact leads_refl s

theorem noneBusy_iff {s : State} : noneBusy s = true ↔ ∀ k, s.busy k = false := by
  unfold noneBusy
  rw [List.all_eq_true]
  exact ⟨fun h k => by simpa using h k (mem_allSockets k), fun h k _ => by simp [h k]⟩

theorem endShutdown_leads (s : State) : Leads s (endShutdown s) := by
  unfold endShutdown
  split
  · rename_i h
    refine leads_mode (t := stopTimers { s with mode := .config, nextTick := none }) rfl
      (fun k hk => ?_) fun hr => nomatch hr
    rw [noneBusy_iff.mp h.2 k] at hk
    cases hk
  · exact leads_refl s

theorem enterDest_leads {k : Socket} {s : State} (hs : (s.sock k).state = .stopping) (hr : AtRest k s) :
    Leads s (enterDest k s) :=
  leads_settleOne (destRecord_kept _ _ _ _).1 (.inr ⟨hs, hr⟩) (.inl (destRecord_kept _ _ _ _).2)

theorem completeDown_leads (k : Socket) (s : State) : Leads s (completeDown k s) := by
  unfold completeDown
  split
  · rename_i h
    obtain ⟨hs, hrun, hoff⟩ := h
    exact (enterDest_leads hs ⟨hoff, hrun⟩).trans (endShutdown_leads _)
  · exact leads_refl s

theorem retireHeld_leads {k : Socket} {s : State} (hk : s.busy k = false) :
    Leads s (retireHeld k s) := leads_settleOne rfl (.inl hk) (.inl rfl)

theorem expireHold_leads (k : Socket) (s : State) : Leads s (expireHold k s) := by
  unfold expireHold
  split
  · rename_i h
    obtain ⟨hs, -, hm⟩ := h
    have hbusy : s.busy k = false := busy_of_state hs
    have hrun : runningMode s.mode = true := by
      revert hm
      cases s.mode <;> decide
    split
    · exact enterStarting_leads hrun hbusy
    · split
      · exact useRetry_leads hrun hbusy
      · exact retireHeld_leads hbusy
    · exact leads_refl s
    · exact leads_refl s
  · exact leads_refl s

/-! ### Slots and timers (R102 to R115) -/

/-- The record of an IDLE slot changes, and does not become ACTIVE. -/
theorem leads_freshSlot {s : State} {i : SlotId} {f : Slot → Slot} (hidle : (s.slot i).state = .idle)
    (hafter : (f (s.slot i)).state ≠ .active) : Leads s (s.modSlot i f) :=
  leads_bus rfl fun hok => busOk_modSlot hok (by rw [hidle]; decide) hafter

theorem setSlot_leads (n : Byte) (v : SlotValues) (s : State) : Leads s (setSlot n v s) := by
  unfold setSlot
  split
  · exact refuse_leads s _
  · rename_i i _
    split
    · exact refuse_leads s _
    · rename_i hidle
      split
      · exact refuse_leads s _
      · split
        · split
          · exact refuse_leads s _
          · exact reply_leads (leads_freshSlot (not_not.mp hidle)
              (by decide : SlotState.idle ≠ .active)) _ _
        · exact refuse_leads s _

theorem getSlot_leads (n : Byte) (s : State) : Leads s (getSlot n s) := by
  unfold getSlot
  split
  · exact refuse_leads s _
  · exact reply_leads (leads_refl s) _ _

theorem sendSlot_leads (n : Byte) (s : State) : Leads s (sendSlot n s) := by
  unfold sendSlot
  split
  · exact refuse_leads s _
  · rename_i i _
    split
    · exact refuse_leads s _
    · split
      · exact refuse_leads s _
      · rename_i hidle
        exact (reply_leads (leads_freshSlot (f := dispatchRecord) (not_not.mp hidle)
          (by decide : SlotState.pending ≠ .active)) _ _).trans (arbiterDecision_leads _)

/-- The record of a slot changes, and is ACTIVE as before. -/
theorem leads_modSlot {s : State} {i : SlotId} {f : Slot → Slot}
    (h : (f (s.slot i)).state = .active ↔ (s.slot i).state = .active) : Leads s (s.modSlot i f) := by
  refine leads_slots rfl rfl fun j => ?_
  have hslot : (s.modSlot i f).slot j = if j = i then f (s.slot i) else s.slot j := by
    simp only [State.slot, State.modSlot_slots, look_put]
  rw [hslot]
  split
  · subst_vars
    exact h
  · exact Iff.rfl

theorem abortRecord_active (x : Slot) : (abortRecord x).state = .active ↔ x.state = .active := by
  unfold abortRecord
  split <;> rename_i h <;> simp [h]

theorem abortPending_active (x : Slot) : (abortPending x).state = .active ↔ x.state = .active := by
  unfold abortPending
  split <;> rename_i h <;> simp [h]

theorem abortSlot_leads (n : Byte) (s : State) : Leads s (abortSlot n s) := by
  unfold abortSlot
  split
  · exact refuse_leads s _
  · exact reply_leads (leads_modSlot (abortRecord_active _)) _ _

theorem setTimers_leads (interval0 interval1 : Word) (s : State) :
    Leads s (setTimers interval0 interval1 s) := by
  unfold setTimers
  split
  · have hwritten : Leads s { s with board := { s.board with host :=
        { s.board.host with interval0 := interval0.toNat, interval1 := interval1.toNat } } } :=
      leads_of_view rfl
    exact draw_leads (reply_leads hwritten _ _)
  · exact refuse_leads s _

/-! ### Modes (R156 to R162) -/

theorem startAtStart_leads {k : Socket} {s : State} (hmode : runningMode s.mode = true) :
    Leads s (startAtStart k s) := by
  unfold startAtStart
  split
  · rename_i h
    refine enterStarting_leads hmode ?_
    unfold startsAtStart at h
    rw [Bool.or_eq_true, beq_iff_eq, Bool.and_eq_true, beq_iff_eq] at h
    rcases h with h | ⟨h, -⟩
    · exact busy_of_state h
    · exact busy_of_state h
  · exact leads_refl s

theorem startAtStart_only (k : Socket) (s : State) : SocketsOnly s (startAtStart k s) := by
  unfold startAtStart
  split
  · exact enterStarting_only k s
  · exact SocketsOnly.refl s

/-- The sockets start one after the other, in a mode that stands. -/
theorem startAll_leads {s : State} (hmode : runningMode s.mode = true) :
    Leads s (forSockets startAtStart s) := by
  have hall := forSockets_rel (fun s t => runningMode s.mode = true → Leads s t ∧ t.mode = s.mode)
    (fun s _ => ⟨leads_refl s, rfl⟩)
    (fun s t u h g hs => by
      obtain ⟨hst, hm⟩ := h hs
      obtain ⟨htu, hm'⟩ := g (hm ▸ hs)
      exact ⟨hst.trans htu, hm'.trans hm⟩)
    startAtStart (fun k s hs => ⟨startAtStart_leads hs, (startAtStart_only k s).mode⟩) s
  exact (hall hmode).1

theorem loadTimer_mode (x : TimerId) (s : State) : (loadTimer x s).mode = s.mode :=
  congrArg View.mode (loadTimer_view x s)

theorem beginRun_leads {s : State} (ha : s.board.attach = .attached) (hmode : s.mode = .config) :
    Leads s (beginRun s) := by
  unfold beginRun
  have hrun : Leads s { s with mode := .run, runClock := 0, nextTick := some (s.now + Config.tickMicros) } :=
    leads_mode rfl (fun k _ hr => by rw [hmode] at hr; cases hr) fun _ => .inr ha
  have htimers := (hrun.trans (leads_of_view (loadTimer_view .timer0 _))).trans
    (leads_of_view (loadTimer_view .timer1 _))
  refine htimers.trans (startAll_leads ?_)
  rw [loadTimer_mode, loadTimer_mode]
  rfl

/-- Start's checks pass on an ATTACHED board alone. -/
theorem startFailure_none {s : State} (h : startFailure s = none) : s.board.attach = .attached := by
  unfold startFailure at h
  split at h
  · cases h
  · rename_i ha
    exact not_not.mp ha

theorem start_leads (s : State) : Leads s (start s) := by
  unfold start
  split
  · exact refuse_leads s _
  · rename_i hmode
    split
    · exact reply_leads (leads_refl s) _ _
    · rename_i hnone
      exact replyMode_leads (beginRun_leads (startFailure_none hnone) (not_not.mp hmode))

theorem pause_leads (b : Bool) (s : State) : Leads s (pause b s) := by
  unfold pause
  split
  · rename_i h
    refine answerMode_leads b (leads_mode rfl (fun _ _ _ => rfl) fun _ => .inl ?_)
    rw [h]
    rfl
  · exact refuseMode_leads b s

theorem resumeExpiries_leads (first second : Bool) (s : State) :
    Leads s (resumeExpiries first second s) := by
  have hdraw : Leads s s.draw := leads_of_view rfl
  unfold resumeExpiries
  split
  · exact leads_refl s
  · exact expireTimer_leads _ s
  · exact expireTimer_leads _ s
  · split
    · exact (hdraw.trans (expireTimer_leads _ _)).trans (expireTimer_leads _ _)
    · exact (hdraw.trans (expireTimer_leads _ _)).trans (expireTimer_leads _ _)

theorem resume_leads (b : Bool) (s : State) : Leads s (resume b s) := by
  unfold resume
  split
  · rename_i h
    refine answerMode_leads b ?_
    unfold resumeRun
    refine Leads.trans (Leads.trans ?_ (arbiterDecision_leads _)) (resumeExpiries_leads _ _ _)
    refine leads_mode rfl (fun _ _ _ => rfl) fun _ => .inl ?_
    rw [h]
    rfl
  · exact refuseMode_leads b s

theorem stopAtShutdown_leads (k : Socket) (s : State) : Leads s (stopAtShutdown k s) := by
  unfold stopAtShutdown
  split
  · exact takeOrder_leads _ s
  · exact leads_refl s

theorem shutdownBursts_leads (s : State) : Leads s (shutdownBursts s) := by
  refine leads_slots rfl rfl fun i => ?_
  have hslot : (shutdownBursts s).slot i = abortPending (s.slot i) := look_tab8 _ i
  rw [hslot]
  exact abortPending_active _

theorem shutdown_leads (s : State) : Leads s (shutdown s) := by
  have hbegin : runningMode s.mode = true → Leads s (replyMode (beginShutdown s)) := by
    intro hr
    have hmode : Leads s { s with mode := .shutdown } :=
      leads_mode rfl (fun _ _ _ => rfl) fun _ => .inl hr
    exact replyMode_leads (((hmode.trans (shutdownBursts_leads _)).trans
      (forSockets_leads stopAtShutdown_leads _)).trans (endShutdown_leads _))
  unfold shutdown
  split
  · rename_i h; exact hbegin (by rw [h]; rfl)
  · rename_i h; exact hbegin (by rw [h]; rfl)
  all_goals exact refuse_leads s _

theorem clear_leads (s : State) : Leads s (clear s) := by
  unfold clear
  split
  · exact refuse_leads s _
  · rename_i hmode
    split
    · exact refuse_leads s _
    · refine replyMode_leads (leads_mode
        (t := stopTimers { s with mode := .config, safeCause := none, nextTick := none }) rfl
        (fun k _ hr => ?_) fun hr => nomatch hr)
      rw [not_not.mp hmode] at hr
      cases hr

theorem takeOven_leads (asserted : Bool) (s : State) : Leads s (takeOven asserted s) := by
  have htaken : Leads s { s with ovenOk := asserted } := leads_of_view rfl
  unfold takeOven
  split
  · exact leads_refl s
  · dsimp only
    split
    · exact htaken
    · exact htaken.trans (enterSafe_leads _ _)

/-! ### Rounds and samples (R36 to R40) -/

theorem takeBoundary_leads (s : State) : Leads s (takeBoundary s) := by
  unfold takeBoundary
  dsimp only
  split <;> exact leads_of_view rfl

theorem scan_view (c : Scanner) (s : State) : view { s with scan := c } = view s := rfl

theorem setMark_leads (k : Socket) (r : RailKind) (m : Bool) (s : State) : Leads s (setMark k r m s) :=
  leads_of_view rfl

theorem deliverCurrent_leads (k : Socket) (r : RailKind) (current : Nat) (s : State) :
    Leads s (deliverCurrent k r current s) := by
  have hjudged := (setMark_leads k r true s).trans (sequencerSample_leads k r current _)
  unfold deliverCurrent
  dsimp only
  split
  · exact hjudged
  · split
    · exact (draw_leads hjudged).trans (setMark_leads k r true _)
    · exact draw_leads hjudged

theorem takeVerdict_leads (v : Option FailMsg) (s : State) : Leads s (takeVerdict v s) := by
  unfold takeVerdict
  split
  · exact takeFail_leads _ s
  · exact leads_refl s

theorem arriveCurrent_leads (k : Socket) (r : RailKind) (x : Sample) (s : State) :
    Leads s (arriveCurrent k r x s) := by
  unfold arriveCurrent
  exact (Leads.trans (leads_of_view (scan_view _ s)) (deliverCurrent_leads k r _ _)).trans
    (takeVerdict_leads _ _)

theorem arriveTemp_leads (k : Socket) (x : Sample) (s : State) : Leads s (arriveTemp k x s) :=
  Leads.trans (leads_of_view (scan_view _ s)) (heaterSample_leads k x _)

theorem compareBulk_leads (mV : Nat) (s : State) : Leads s (compareBulk mV s) := by
  have hlow : ∀ n, Leads s { s with bulkLow := n } := fun n => leads_of_view rfl
  unfold compareBulk
  split
  · split
    · exact hlow 1
    · exact (hlow 0).trans (enterSafe_leads _ _)
  · exact hlow 0

theorem arriveBulk_leads (x : Sample) (s : State) : Leads s (arriveBulk x s) :=
  (Leads.trans (leads_of_view (scan_view _ s)) (compareBulk_leads _ _)).trans (roundEnd_leads _)

theorem takeCode_leads (code : Nat) (s : State) : Leads s (takeCode code s) := by
  unfold takeCode
  split
  · exact leads_refl s
  · rename_i rd _
    have hmoved : Leads s (advanceRound rd s) := leads_of_view rfl
    dsimp only
    split
    · exact hmoved.trans (arriveTemp_leads _ _ _)
    · exact hmoved.trans (arriveCurrent_leads _ _ _ _)
    · exact hmoved.trans (arriveBulk_leads _ _)

theorem takeRflt_leads (k : Socket) (asserted : Bool) (s : State) : Leads s (takeRflt k asserted s) := by
  unfold takeRflt regFaultCheck
  split <;> exact leads_of_view rfl

/-! ### Carrier periods (R69) -/

theorem startPeriod_leads (s : State) : Leads s (startPeriod s) := by
  refine leads_heat rfl fun k _ hc => ?_
  obtain ⟨hd, ha, -, -⟩ := hc
  refine ⟨hd, ha, ha, ?_⟩
  show look (tab16 fun k => decide (0 < look s.supply.applied k)) k = false
  rw [look_tab16, ha]
  rfl

theorem endOnTime_leads (k : Socket) (s : State) : Leads s (endOnTime k s) := by
  unfold endOnTime
  split
  · refine leads_heat rfl fun j _ hc => ?_
    obtain ⟨hd, ha, hac, hon⟩ := hc
    refine ⟨hd, ha, hac, ?_⟩
    show look (put s.heaterOn k false) j = false
    rw [look_put]
    split
    · rfl
    · exact hon
  · exact leads_refl s

/-! ### Monitors and alarms (R119 to R130) -/

theorem takeMonitor_leads (k : Socket) (level : LineLevel) (s : State) :
    Leads s (takeMonitor k level s) := by
  unfold takeMonitor
  split
  · refine leads_windows rfl fun j hj => .inl fun hnone => hj ?_
    unfold windowOf at hnone ⊢
    rw [State.modMon_mon, look_put]
    split
    · subst_vars
      simp [hnone]
    · exact hnone
  · exact leads_refl s

theorem closeWindow_leads (k : Socket) (s : State) : Leads s (closeWindow k s) := by
  unfold closeWindow
  split
  · exact leads_refl s
  · have hgone : Leads s (setWindow k none s) := discardWindow_leads k s
    dsimp only
    split
    · exact hgone.trans (leads_modSock _ k _ rfl rfl)
    · exact hgone.trans (takeFail_leads _ _)

theorem modMon_leads {k : Socket} {f : Monitor → Monitor} (h : ∀ m, (f m).window = m.window)
    (s : State) : Leads s (s.modMon k f) := by
  refine leads_of_view (mon_view _ fun j => ?_)
  rw [look_put]
  split
  · subst_vars
    exact h _
  · rfl

theorem alarmEdge_leads (k : Socket) (s : State) : Leads s (alarmEdge k s) := by
  unfold alarmEdge
  dsimp only
  split
  · have hlatched : Leads s (s.modMon k fun m => { m with latch := true }) :=
      modMon_leads (f := fun m => { m with latch := true }) (fun _ => rfl) s
    split
    · exact hlatched.trans (takeFail_leads _ _)
    · exact hlatched
  · exact leads_refl s

theorem takeAlarm_leads (k : Socket) (level : LineLevel) (s : State) :
    Leads s (takeAlarm k level s) := by
  unfold takeAlarm
  split
  · have htaken : Leads s (s.modMon k fun m => { m with alarm := some (alarmLevel k level s) }) :=
      modMon_leads (f := fun m => { m with alarm := some (alarmLevel k level s) }) (fun _ => rfl) s
    dsimp only
    split
    · exact htaken.trans (alarmEdge_leads k _)
    · exact htaken
  · exact leads_refl s

theorem setAlarmEnables_leads (latch report : Half) (s : State) :
    Leads s (setAlarmEnables latch report s) := by
  unfold setAlarmEnables
  split
  · exact refuse_leads s _
  · exact reply_leads (leads_records _ (fun k => by rw [look_tab16]; rfl)
      fun k => .inl (by rw [look_tab16]; rfl)) _ _

theorem readAlarms_leads (clearSet : Half) (s : State) : Leads s (readAlarms clearSet s) := by
  have htold : Leads s (s.reply .ok _) := reply_leads (leads_refl s) .ok
    (putSet (setOf fun k => (look s.mon k).latch)
      ++ putSet (setOf fun k => (look s.mon k).alarm == some .active)
      ++ putSet (setOf fun k => (look s.mon k).alarm.isSome))
  exact htold.trans (leads_of_view (mon_view _ fun k => by rw [look_tab16]; rfl))

theorem fails_view (l : List FailMsg) (s : State) : view { s with fails := l } = view s := rfl

/-! ### Every command -/

/-- Every command but TICK and the bytes of the link is made of moves. -/
theorem effectOf_leads (c : Instr) (hline : ∀ x, c ≠ .lineByte x) (htick : c ≠ .tick) (s : State) :
    Leads s (effectOf c s) := by
  have hlink : ∀ l, Leads s { s with link := l } := fun l => leads_of_view rfl
  cases c with
  | identify => exact reply_leads (leads_refl s) _ _
  | getBoardStatus => exact draw_leads (reply_leads (leads_refl s) _ _)
  | attach => exact attach_leads s
  | setBoardField code index value => exact setBoardField_leads code index value s
  | getBoardField code index => exact getBoardField_leads code index s
  | setProfile profile steps => exact setProfile_leads profile steps s
  | getProfile profile => exact getProfile_leads profile s
  | setPolicy kind action threshold bin => exact setPolicy_leads kind action threshold bin s
  | getPolicy => exact reply_leads (leads_refl s) _ _
  | setSocketParams n v => exact socketRequest_leads n _ fun _ k _ => setParamsBody_leads v k s
  | getSocket n => exact getSocket_leads n s
  | setSlot n v => exact setSlot_leads n v s
  | getSlot n => exact getSlot_leads n s
  | sendSlot n => exact sendSlot_leads n s
  | abortSlot n => exact abortSlot_leads n s
  | setTimers interval0 interval1 => exact setTimers_leads interval0 interval1 s
  | start => exact start_leads s
  | pause b => exact pause_leads b s
  | resume b => exact resume_leads b s
  | shutdown => exact shutdown_leads s
  | quench b => exact answerMode_leads b (enterSafe_leads _ s)
  | clear => exact clear_leads s
  | startSocket n =>
    exact socketRequest_leads n _ fun h k _ => startSocketBody_leads k (beq_iff_eq.mp h)
  | stopSocket n => exact socketRequest_leads n _ fun _ k _ => stopSocketBody_leads k s
  | retrySocket n =>
    exact socketRequest_leads n _ fun h k _ => retrySocketBody_leads k (beq_iff_eq.mp h)
  | clearSocket n => exact socketRequest_leads n _ fun _ k _ => clearSocketBody_leads k s
  | readFails n => exact readFails_leads n s
  | setAlarmEnables latch report => exact setAlarmEnables_leads latch report s
  | readAlarms clearSet => exact readAlarms_leads clearSet s
  | lineByte x => exact absurd rfl (hline x)
  | gapTimerExpiry =>
    show Leads s (gapExpires s)
    unfold gapExpires
    split
    · exact leads_refl s
    · exact hlink _
    · exact leads_refl s
  | replyEnd =>
    show Leads s (replyEnds s)
    unfold replyEnds
    split
    · exact hlink _
    · exact leads_refl s
    · exact leads_refl s
  | powerOnReset | resetNAsserted | clockLoss | resetEnd pins => exact leads_refl s
  | brdPresentAsserted => exact boardSeated_leads s
  | brdPresentDeasserted => exact boardRemoved_leads s
  | attachReadSuccess image mon alm => exact readSucceeds_leads image mon alm s
  | attachReadFailure image => exact readFailsCheck_leads image s
  | attachNoAnswer | attachTimeout => exact failRead_leads _ s
  | roundBoundary => exact takeBoundary_leads s
  | channelArrival code => exact takeCode_leads code.toNat s
  | riseEnd k r => exact endRise_leads k r s
  | fallEnd k r => exact endFall_leads k r s
  | dwellEnd k => exact endDwell_leads k s
  | rfltNLevel k asserted => exact takeRflt_leads k asserted s
  | upProfileComplete k => exact completeUp_leads k s
  | downProfileComplete k => exact completeDown_leads k s
  | stopOrder o => exact Leads.trans (leads_of_view (orders_view _ s)) (takeOrder_leads o _)
  | carrierPeriodStart => exact startPeriod_leads s
  | dispatchTimerExpiry x => exact expireTimer_leads x s
  | burstEnd d => exact endBurst_leads d s
  | monitorEdge k level => exact takeMonitor_leads k level s
  | windowClose k => exact closeWindow_leads k s
  | alarmLevelTaken k level => exact takeAlarm_leads k level s
  | failTaken f => exact Leads.trans (leads_of_view (fails_view _ s)) (takeFail_leads f _)
  | tick => exact absurd rfl htick
  | holdExpiry k => exact expireHold_leads k s
  | ovenOkLevel asserted => exact takeOven_leads asserted s
  | heaterOnTimeEnd k => exact endOnTime_leads k s

/-! ### The bytes of the link (R166, R167) -/

/-- The hand-over of a request is the effect of its command. -/
theorem handOver_eq (p : List Byte) (s : State) (k : RequestKind) :
    handOver p s k = effectOf (commandOf p k) s := by
  cases k <;> rfl

theorem handOver_leads (p : List Byte) (s : State) (k : RequestKind) : Leads s (handOver p s k) := by
  rw [handOver_eq]
  refine effectOf_leads _ (fun x => ?_) ?_ s
  · cases k <;> exact Instr.noConfusion
  · cases k <;> exact Instr.noConfusion

theorem discardFrame_leads (s : State) : Leads s (discardFrame s) := leads_of_view rfl

theorem dispatchFrame_leads (kind tag : Nat) (p : List Byte) (s : State) :
    Leads s (dispatchFrame kind tag p s) := by
  have htaken : Leads s (match requestKind kind with
      | none => s.refuse .unknownKind
      | some k => if p.length ≠ payloadLength p k then s.refuse .length else handOver p s k) := by
    split
    · exact refuse_leads s _
    · split
      · exact refuse_leads s _
      · exact handOver_leads p s _
  exact htaken.trans (leads_of_view rfl)

theorem dispatchBroadcast_leads (kind : Nat) (p : List Byte) (s : State) :
    Leads s (dispatchBroadcast kind p s) := by
  unfold dispatchBroadcast
  split
  · exact leads_refl s
  · split
    · exact answerMode_leads true (enterSafe_leads _ s)
    · exact pause_leads true s
    · exact resume_leads true s
    · exact leads_refl s

theorem completeFrame_leads (f : List Byte) (s : State) : Leads s (completeFrame f s) := by
  unfold completeFrame
  dsimp only
  split
  · exact discardFrame_leads s
  · split
    · exact (discardFrame_leads s).trans (dispatchBroadcast_leads _ _ _)
    · split
      · exact dispatchFrame_leads _ _ _ s
      · exact discardFrame_leads s

theorem takeLine_leads (x : LineItem) (s : State) : Leads s (takeLine x s) := by
  have hlink : ∀ l, Leads s { s with link := l } := fun l => leads_of_view rfl
  unfold takeLine
  split
  · split
    · exact hlink _
    · exact leads_refl s
  · exact leads_refl s
  · unfold receiveByte
    dsimp only
    split
    · exact discardFrame_leads s
    · split
      · exact (hlink _).trans (completeFrame_leads _ _)
      · exact hlink _
  · exact discardFrame_leads s
  · exact leads_refl s
  · exact leads_refl s

/-- Every command but TICK is made of moves. -/
theorem effect_leads {c : Instr} (htick : c ≠ .tick) (s : State) : Leads s (effectOf c s) := by
  by_cases hline : ∃ x, c = .lineByte x
  · obtain ⟨x, rfl⟩ := hline
    exact takeLine_leads x s
  · exact effectOf_leads c (fun x hx => hline ⟨x, hx⟩) htick s

end Sys2Proof.Machine
end

section
/-! SUPPORT. The proofs of chapter 10, stress credit: a tick in closed form. -/

namespace Sys2Proof.Machine

/-! ### One socket at a tick (R149 to R153) -/

/-- The record of a socket after a tick in RUN, credited if it is STRESSING and its test qualifies (R152). -/
def tickRecord (time : Nat) (s : State) (k : Socket) : SocketRecord :=
  if (s.sock k).state = .stressing then
    match testSocket time k s with
    | .qualified band =>
        { s.sock k with credit := accrue (look s.board.host.weights band) (s.sock k).credit }
    | .noTemp | .outOfBand | .rails | .noActivity => s.sock k
  else s.sock k

/-- The tick result of a socket after a tick in RUN (R147, R149). -/
def tickTold (time : Nat) (s : State) (k : Socket) : Option TickResult :=
  if (s.sock k).state = .stressing then some (testSocket time k s) else look s.tickResult k

/-- A socket is ordered to DONE at a tick in RUN: it was credited and has reached its target (R153). -/
def tickDone (time : Nat) (s : State) (k : Socket) : Bool :=
  match (s.sock k).state, testSocket time k s with
  | .stressing, .qualified _ => targetReached (tickRecord time s k)
  | _, _ => false

theorem creditTick_eq (time : Nat) (k : Socket) (s : State) :
    creditTick time k s = { s with
      sockets := put s.sockets k (tickRecord time s k)
      tickResult := put s.tickResult k (tickTold time s k)
      orders := s.orders ++ (if tickDone time s k = true then [⟨k, .toDone⟩] else []) } := by
  by_cases hs : (s.sock k).state = .stressing
  · unfold creditTick
    rw [if_pos hs]
    have hput : put s.sockets k (s.sock k) = s.sockets := put_look _ _
    have htold : tickTold time s k = some (testSocket time k s) := if_pos hs
    rw [htold]
    cases ht : testSocket time k s with
    | qualified band =>
      have hrecord : tickRecord time s k
          = { s.sock k with credit := accrue (look s.board.host.weights band) (s.sock k).credit } := by
        rw [tickRecord, if_pos hs, ht]
      have hdone : tickDone time s k = targetReached (tickRecord time s k) := by
        rw [tickDone, hs, ht]
      have hpaid : ((s.setTickResult k (some (.qualified band))).modSock k fun r =>
          { r with credit := accrue (look s.board.host.weights band) r.credit }).sock k
            = tickRecord time s k := by
        rw [sock_modSock, if_pos rfl, hrecord]
        rfl
      dsimp only
      rw [hpaid, hdone]
      split
      · rw [hrecord]
        rfl
      · rw [hrecord, List.append_nil]
        rfl
    | noTemp | outOfBand | rails | noActivity =>
      have hrecord : tickRecord time s k = s.sock k := by
        rw [tickRecord, if_pos hs, ht]
      have hdone : tickDone time s k = false := by
        rw [tickDone, hs, ht]
      rw [hrecord, hput, hdone, if_neg Bool.false_ne_true, List.append_nil]
      rfl
  · have hrecord : tickRecord time s k = s.sock k := if_neg hs
    have htold : tickTold time s k = look s.tickResult k := if_neg hs
    have hdone : tickDone time s k = false := by
      unfold tickDone
      split
      · rename_i h _
        exact absurd h hs
      · rfl
    have hput : put s.sockets k (s.sock k) = s.sockets := put_look _ _
    rw [creditTick, if_neg hs, hrecord, htold, hdone, hput, put_look, if_neg Bool.false_ne_true,
      List.append_nil]

/-- What a tick makes of a socket depends on no other socket's part of the tick. -/
theorem tick_other {s : State} {k a : Socket} (h : k ≠ a) (time : Nat) (r : SocketRecord)
    (x : Option TickResult) (o : List StopOrder) :
    let t : State := { s with
      sockets := put s.sockets a r, tickResult := put s.tickResult a x, orders := o }
    tickRecord time t k = tickRecord time s k ∧ tickTold time t k = tickTold time s k
      ∧ tickDone time t k = tickDone time s k := by
  intro t
  have hsock : t.sock k = s.sock k := look_put_other _ _ _ _ h
  have hresult : look t.tickResult k = look s.tickResult k := look_put_other _ _ _ _ h
  have htest : testSocket time k t = testSocket time k s := by
    unfold testSocket
    rw [hsock]
    rfl
  have hrecord : tickRecord time t k = tickRecord time s k := by
    unfold tickRecord
    rw [hsock, htest]
  refine ⟨hrecord, ?_, ?_⟩
  · unfold tickTold
    rw [hsock, htest, hresult]
  · unfold tickDone
    rw [hsock, htest, hrecord]

theorem creditTicks_eq (time : Nat) (l : List Socket) (hl : l.Nodup) (s : State) :
    l.foldl (fun t k => creditTick time k t) s = { s with
      sockets := tab16 fun k => if k ∈ l then tickRecord time s k else s.sock k
      tickResult := tab16 fun k => if k ∈ l then tickTold time s k else look s.tickResult k
      orders := s.orders ++ (l.filter (tickDone time s)).map fun k => ⟨k, .toDone⟩ } := by
  induction l generalizing s with
  | nil =>
    have hs : (tab16 fun k => s.sock k) = s.sockets := tab16_look _
    simp [hs, tab16_look]
  | cons a rest ih =>
    obtain ⟨ha, hrest⟩ := List.nodup_cons.mp hl
    rw [List.foldl_cons, ih hrest, creditTick_eq]
    have hne : ∀ k, k ∈ rest → k ≠ a := fun k hk he => ha (he ▸ hk)
    generalize hx : s.orders ++ (if tickDone time s a = true then [(⟨a, .toDone⟩ : StopOrder)] else [])
      = o
    have hother := fun k (hk : k ≠ a) =>
      tick_other (s := s) hk time (tickRecord time s a) (tickTold time s a) o
    congr 1
    · refine table_ext fun k => ?_
      rw [look_tab16, look_tab16]
      by_cases hk : k = a
      · subst hk
        rw [if_neg ha, if_pos List.mem_cons_self]
        exact look_put_same _ _ _
      · by_cases hm : k ∈ rest
        · rw [if_pos hm, if_pos (List.mem_cons_of_mem _ hm)]
          exact (hother k hk).1
        · rw [if_neg hm, if_neg (by simp [hk, hm])]
          exact look_put_other _ _ _ _ hk
    · refine table_ext fun k => ?_
      rw [look_tab16, look_tab16]
      by_cases hk : k = a
      · subst hk
        rw [if_neg ha, if_pos List.mem_cons_self]
        exact look_put_same _ _ _
      · by_cases hm : k ∈ rest
        · rw [if_pos hm, if_pos (List.mem_cons_of_mem _ hm)]
          exact (hother k hk).2.1
        · rw [if_neg hm, if_neg (by simp [hk, hm])]
          exact look_put_other _ _ _ _ hk
    · have hfilter : rest.filter (tickDone time { s with
            sockets := put s.sockets a (tickRecord time s a)
            tickResult := put s.tickResult a (tickTold time s a), orders := o })
          = rest.filter (tickDone time s) :=
        List.filter_congr fun k hk => (hother k (hne k hk)).2.2
      rw [hfilter, ← hx, List.filter_cons]
      split <;> simp

/-- A tick in RUN of all sockets at once. -/
theorem creditAll_eq (time : Nat) (s : State) :
    forSockets (creditTick time) s = { s with
      sockets := tab16 (tickRecord time s)
      tickResult := tab16 (tickTold time s)
      orders := s.orders ++ (allSockets.filter (tickDone time s)).map fun k => ⟨k, .toDone⟩ } := by
  rw [forSockets, creditTicks_eq time _ allSockets_nodup]
  simp

/-! ### The hold timers (R10) -/

/-- The run clock after a tick (R147, R148). -/
def nextTime (s : State) : Nat := if s.runClock < 4294967295 then s.runClock + 1 else s.runClock

/-- The part after the clock's advance at a tick, with the sockets not yet concerned. -/
def clockTicked (s : State) : State :=
  { s with runClock := nextTime s, nextTick := some (s.now + 1000000) }

theorem takeTick_held {s : State} (h : s.nextTick = none) : takeTick s = s := by
  rw [takeTick, h]

theorem takeTick_clock {s : State} (h : s.nextTick ≠ none) (hmode : s.mode ≠ .run) :
    takeTick s = clockTicked s := by
  obtain ⟨d, hd⟩ := Option.ne_none_iff_exists'.mp h
  rw [takeTick, hd]
  exact if_neg hmode

theorem takeTick_run {s : State} (h : s.nextTick ≠ none) (hmode : s.mode = .run) :
    takeTick s = forSockets (creditTick (nextTime s)) (lowerHolds (clockTicked s)) := by
  obtain ⟨d, hd⟩ := Option.ne_none_iff_exists'.mp h
  rw [takeTick, hd]
  exact if_pos hmode

/-- Only the hold timer of a record is lowered. -/
theorem lowerHold_kept (r : SocketRecord) :
    (lowerHold r).state = r.state ∧ (lowerHold r).credit = r.credit := by
  unfold lowerHold
  split <;> exact ⟨rfl, rfl⟩

theorem lowerHold_of_ne {r : SocketRecord} (h : r.state ≠ .held) : lowerHold r = r := by
  unfold lowerHold
  split
  · rename_i hs _ _; exact absurd hs h
  · rename_i hs _ _; exact absurd hs h
  · rfl

/-- A timer that is not there, has run out, or belongs to no timed hold stands (R10). -/
theorem lowerHold_stands {r : SocketRecord} (h : r.holdReason = some .safe ∨ r.holdReason = none
    ∨ r.holdTime = none ∨ r.holdTime = some 0) : lowerHold r = r := by
  unfold lowerHold
  split
  · rename_i hr ht; rcases h with h | h | h | h <;> simp_all
  · rename_i hr ht; rcases h with h | h | h | h <;> simp_all
  · rfl

theorem lowerHold_lowered {r : SocketRecord} {n : Nat} (hs : r.state = .held)
    (hr : r.holdReason = some .policy ∨ r.holdReason = some .shed) (ht : r.holdTime = some (n + 1)) :
    lowerHold r = { r with holdTime := some n, expiryDue := r.expiryDue || decide (n = 0) } := by
  unfold lowerHold
  rcases hr with hr | hr <;> rw [hs, hr, ht] <;> rfl

theorem lowerHolds_sock (s : State) (k : Socket) : (lowerHolds s).sock k = lowerHold (s.sock k) :=
  look_tab16 _ k

/-! ### The test of a socket (R150, R151) -/

theorem testSocket_noTemp {time : Nat} {k : Socket} {s : State} (h : s.validTemp k = none) :
    testSocket time k s = .noTemp := by
  rw [testSocket, h]

/-- Conditions 2 to 4 of R150, of a socket with a valid temperature. -/
theorem testSocket_valid {time : Nat} {k : Socket} {s : State} {x : Int} (h : s.validTemp k = some x) :
    testSocket time k s =
      if s.board.host.stressBand < (x - (s.sock k).params.target).natAbs then .outOfBand
      else if ¬((s.rail k .core).state = .on ∧ (s.rail k .aux).state = .on) then .rails
      else if activityRecent s.board.host.activityAge time (s.sock k).lastPass = false then .noActivity
      else .qualified (bandIndex x s.board.host.refTemp s.board.host.weightStep) := by
  rw [testSocket, h]

theorem activityRecent_iff {age time : Nat} {last : Option Nat} :
    activityRecent age time last = true ↔ age = 0 ∨ ∃ p, last = some p ∧ time ≤ p + age := by
  unfold activityRecent
  cases last <;> simp

theorem bandIndex_val (t refTemp : Int) (step : Nat) :
    ((bandIndex t refTemp step).val : Int) = clampInt 0 7 ((t - refTemp) / step + 4) := by
  have hfloor : Int.fdiv (t - refTemp) step = (t - refTemp) / step :=
    Int.fdiv_eq_ediv_of_nonneg _ (Int.natCast_nonneg step)
  have hlo := le_clampInt (lo := 0) (hi := 7) (x := (t - refTemp) / step + 4) (by decide)
  have hhi := clampInt_le (lo := 0) (hi := 7) (x := (t - refTemp) / step + 4) (by decide)
  unfold bandIndex
  rw [hfloor, Fin.ofNat, Fin.val_mk]
  omega

theorem accrue_eq (w c : Nat) : accrue w c = min 4294967295 (c + w) := by
  unfold accrue satAdd Config.creditCeiling
  split <;> omega

/-! ### A tick in RUN, socket by socket -/

/-- The part at a tick in RUN when its sockets come to be tested. -/
def lowered (s : State) : State := lowerHolds (clockTicked s)

theorem lowered_sock (s : State) (k : Socket) : (lowered s).sock k = lowerHold (s.sock k) :=
  lowerHolds_sock _ k

theorem lowered_state (s : State) (k : Socket) : ((lowered s).sock k).state = (s.sock k).state := by
  rw [lowered_sock, (lowerHold_kept _).1]

theorem lowered_stressing {s : State} {k : Socket} (h : (s.sock k).state = .stressing) :
    (lowered s).sock k = s.sock k := by
  rw [lowered_sock, lowerHold_of_ne (by rw [h]; decide)]

theorem testSocket_lowered (time : Nat) {s : State} {k : Socket} (h : (s.sock k).state = .stressing) :
    testSocket time k (lowered s) = testSocket time k s := by
  unfold testSocket
  rw [lowered_stressing h]
  rfl

/-- A socket that is not STRESSING has its hold timer lowered at most. -/
theorem tickRecord_other (time : Nat) {s : State} {k : Socket} (h : (s.sock k).state ≠ .stressing) :
    tickRecord time (lowered s) k = lowerHold (s.sock k) := by
  rw [tickRecord, if_neg (by rw [lowered_state]; exact h), lowered_sock]

/-- A STRESSING socket is credited where its test qualifies (R152). -/
theorem tickRecord_stressing (time : Nat) {s : State} {k : Socket} (h : (s.sock k).state = .stressing) :
    tickRecord time (lowered s) k = match testSocket time k s with
      | .qualified band =>
          { s.sock k with credit := accrue (look s.board.host.weights band) (s.sock k).credit }
      | .noTemp | .outOfBand | .rails | .noActivity => s.sock k := by
  rw [tickRecord, if_pos ((lowered_state s k).trans h), testSocket_lowered time h, lowered_stressing h]
  rfl

theorem tickTold_stressing (time : Nat) {s : State} {k : Socket} (h : (s.sock k).state = .stressing) :
    tickTold time (lowered s) k = some (testSocket time k s) := by
  rw [tickTold, if_pos ((lowered_state s k).trans h), testSocket_lowered time h]

theorem tickTold_other (time : Nat) {s : State} {k : Socket} (h : (s.sock k).state ≠ .stressing) :
    tickTold time (lowered s) k = look s.tickResult k := by
  rw [tickTold, if_neg (by rw [lowered_state]; exact h)]
  rfl

/-- A test that does not qualify is told and leaves the record. -/
theorem tick_unqualified {time : Nat} {s : State} {k : Socket} {result : TickResult}
    (h : (s.sock k).state = .stressing) (ht : testSocket time k s = result)
    (hband : ∀ band, result ≠ .qualified band) :
    tickTold time (lowered s) k = some result ∧ tickRecord time (lowered s) k = s.sock k := by
  rw [tickTold_stressing time h, tickRecord_stressing time h, ht]
  refine ⟨rfl, ?_⟩
  cases result with
  | qualified band => exact absurd rfl (hband band)
  | noTemp | outOfBand | rails | noActivity => rfl

/-- Who is ordered to DONE, in the words of R153. -/
theorem tickDone_eq (time : Nat) (s : State) (k : Socket) :
    tickDone time (lowered s) k = match (s.sock k).state, tickTold time (lowered s) k with
      | .stressing, some (.qualified _) => decide (0 < (s.sock k).stressTarget
          ∧ (s.sock k).stressTarget * 256 ≤ (tickRecord time (lowered s) k).credit)
      | _, _ => false := by
  unfold tickDone
  rw [lowered_state]
  by_cases hk : (s.sock k).state = .stressing
  · rw [tickTold_stressing time hk, testSocket_lowered time hk, hk]
    cases ht : testSocket time k s with
    | qualified band =>
      have htarget : (tickRecord time (lowered s) k).stressTarget = (s.sock k).stressTarget := by
        rw [tickRecord_stressing time hk, ht]
      dsimp only
      rw [targetReached, htarget, Bool.decide_and]
    | noTemp | outOfBand | rails | noActivity => rfl
  · generalize (s.sock k).state = x at hk
    cases x <;> first | rfl | exact absurd rfl hk

/-- A tick in RUN: the clock, then every socket (R148). -/
theorem takeTick_run_spec {s : State} (h : s.nextTick ≠ none) (hmode : s.mode = .run) :
    takeTick s = { s with
        runClock := nextTime s
        nextTick := some (s.now + 1000000)
        sockets := (takeTick s).sockets
        tickResult := (takeTick s).tickResult
        orders := (takeTick s).orders }
      ∧ (takeTick s).orders
        = s.orders ++ (allSockets.filter (tickDone (nextTime s) (lowered s))).map (fun k => ⟨k, .toDone⟩)
      ∧ ∀ k, (takeTick s).sock k = tickRecord (nextTime s) (lowered s) k
        ∧ look (takeTick s).tickResult k = tickTold (nextTime s) (lowered s) k := by
  have heq : takeTick s = _ := (takeTick_run h hmode).trans (creditAll_eq (nextTime s) (lowered s))
  rw [heq]
  exact ⟨rfl, rfl, fun k => ⟨look_tab16 _ k, look_tab16 _ k⟩⟩

/-- Settles O52: a tick in closed form, socket by socket. -/
theorem ticksTestCreditAndLowerHolds : Obligations.TicksTestCreditAndLowerHolds := by
  intro s hr time host
  have hexec : exec .tick s = .next (takeTick s) := exec_effect .tick rfl hr
  rw [hexec]
  refine ⟨fun h => by rw [takeTick_held h], fun h hmode => by rw [takeTick_clock h hmode]; rfl,
    fun h hmode => ⟨takeTick s, rfl, ?_⟩⟩
  obtain ⟨hframe, horders, hsockets⟩ := takeTick_run_spec h hmode
  refine ⟨hframe, ?_, fun k => ?_⟩
  · rw [horders]
    congr 2
    refine List.filter_congr fun k _ => ?_
    rw [(hsockets k).1, (hsockets k).2]
    exact tickDone_eq (nextTime s) s k
  · rw [(hsockets k).1, (hsockets k).2]
    refine ⟨tickTold_other _, fun hheld hk => ?_, fun hk => ⟨fun hstands => ?_,
      fun n hreason htimer => ?_⟩, fun hk => ⟨fun htemp => ?_, fun x htemp => ?_⟩⟩
    · rw [tickRecord_other _ hk, lowerHold_of_ne hheld]
    · rw [tickRecord_other _ (by rw [hk]; decide), lowerHold_stands hstands]
    · rw [tickRecord_other _ (by rw [hk]; decide), lowerHold_lowered hk hreason htimer]
    · exact tick_unqualified hk (testSocket_noTemp htemp) fun _ => TickResult.noConfusion
    · have hvalid := testSocket_valid (time := nextTime s) htemp
      refine ⟨fun hout => ?_, fun hin hoff => ?_, fun hin hon hold => ?_, fun hin hon hrecent => ?_⟩
      · refine tick_unqualified hk ?_ fun _ => TickResult.noConfusion
        rw [hvalid, if_pos (Nat.lt_of_not_le hout)]
      · refine tick_unqualified hk ?_ fun _ => TickResult.noConfusion
        rw [hvalid, if_neg (Nat.not_lt_of_le hin), if_pos hoff]
      · have hstale : activityRecent s.board.host.activityAge (nextTime s) (s.sock k).lastPass = false :=
          Bool.eq_false_iff.mpr fun ha => hold (activityRecent_iff.mp ha)
        refine tick_unqualified hk ?_ fun _ => TickResult.noConfusion
        rw [hvalid, if_neg (Nat.not_lt_of_le hin), if_neg (not_not_intro hon), if_pos hstale]
      · have hactive : activityRecent s.board.host.activityAge (nextTime s) (s.sock k).lastPass = true :=
          activityRecent_iff.mpr hrecent
        have hqualified : testSocket (nextTime s) k s
            = .qualified (bandIndex x s.board.host.refTemp s.board.host.weightStep) := by
          rw [hvalid, if_neg (Nat.not_lt_of_le hin), if_neg (not_not_intro hon),
            if_neg (by rw [hactive]; decide)]
        refine ⟨_, bandIndex_val x s.board.host.refTemp s.board.host.weightStep, ?_, ?_⟩
        · rw [tickTold_stressing _ hk, hqualified]
        · rw [tickRecord_stressing _ hk, hqualified]
          dsimp only
          rw [accrue_eq]

/-! ### What a tick does to the view -/

theorem accrue_bounds (w : Nat) {c : Nat} (h : c ≤ 4294967295) :
    c ≤ accrue w c ∧ accrue w c ≤ 4294967295 := by
  unfold accrue satAdd Config.creditCeiling
  split <;> omega

theorem tickRecord_state (time : Nat) (s : State) (k : Socket) :
    (tickRecord time s k).state = (s.sock k).state := by
  unfold tickRecord
  split
  · split <;> rfl
  · rfl

/-- A credit that a tick changes is a STRESSING socket's, and rises within the ceiling (R152). -/
theorem tickRecord_credit (time : Nat) {s : State} {k : Socket} (h : (s.sock k).credit ≤ 4294967295) :
    (tickRecord time s k).credit ≤ 4294967295
      ∧ ((tickRecord time s k).credit = (s.sock k).credit
        ∨ ((s.sock k).credit < (tickRecord time s k).credit ∧ (s.sock k).state = .stressing)) := by
  unfold tickRecord
  split
  · rename_i hs
    split
    · rename_i band _
      obtain ⟨hle, hmax⟩ := accrue_bounds (look s.board.host.weights band) h
      refine ⟨hmax, ?_⟩
      rcases Nat.eq_or_lt_of_le hle with he | hlt
      · exact .inl he.symm
      · exact .inr ⟨hlt, hs⟩
    all_goals exact ⟨h, .inl rfl⟩
  · exact ⟨h, .inl rfl⟩

/-- A tick changes credits alone, of what the invariants read. -/
theorem takeTick_view (s : State) :
    view (takeTick s) = { view s with credit := fun k => ((takeTick s).sock k).credit } := by
  by_cases h : s.nextTick = none
  · rw [takeTick_held h]
    rfl
  · by_cases hmode : s.mode = .run
    · rw [takeTick_run h hmode, creditAll_eq]
      refine View.ext rfl rfl rfl rfl ?_ rfl rfl rfl rfl rfl rfl rfl rfl
      funext k
      have hsocket : (look (tab16 (tickRecord (nextTime s) (lowered s))) k).state = (s.sock k).state := by
        rw [look_tab16, tickRecord_state, lowered_state]
      exact hsocket
    · rw [takeTick_clock h hmode]
      rfl

theorem takeTick_credit {s : State} {k : Socket} (h : (s.sock k).credit ≤ 4294967295) :
    ((takeTick s).sock k).credit ≤ 4294967295
      ∧ (((takeTick s).sock k).credit = (s.sock k).credit
        ∨ ((s.sock k).credit < ((takeTick s).sock k).credit ∧ s.mode = .run
          ∧ (s.sock k).state = .stressing)) := by
  by_cases hn : s.nextTick = none
  · rw [takeTick_held hn]
    exact ⟨h, .inl rfl⟩
  · by_cases hmode : s.mode = .run
    · have hlowered := lowered_sock s k
      obtain ⟨hstate, hcredit⟩ := lowerHold_kept (s.sock k)
      have htick := tickRecord_credit (nextTime s) (s := lowered s) (k := k)
        (by rw [hlowered, hcredit]; exact h)
      rw [hlowered, hstate, hcredit] at htick
      rw [((takeTick_run_spec hn hmode).2.2 k).1]
      exact ⟨htick.1, htick.2.imp_right fun ⟨hlt, hs⟩ => ⟨hlt, hmode, hs⟩⟩
    · rw [takeTick_clock hn hmode]
      exact ⟨h, .inl rfl⟩

end Sys2Proof.Machine
end

section
/-! SUPPORT. The proofs of chapters 0 and 12 and of the invariants: what resets do, and what every step
keeps. -/

namespace Sys2Proof.Machine

/-! ### The state after a reset (R163) -/

section AfterReset

variable (cause : RestartCause) (pins : Pins) (draws : Nat) (pending : List Instr)

theorem afterReset_sock (k : Socket) : (State.afterReset cause pins draws pending).sock k = .reset :=
  look_tab16 _ k

theorem afterReset_rail (k : Socket) (r : RailKind) :
    (State.afterReset cause pins draws pending).rail k r = .off := by
  have h : look (State.afterReset cause pins draws pending).rails k = ⟨.off, .off⟩ := look_tab16 _ k
  unfold State.rail
  rw [h]
  cases r <;> rfl

theorem afterReset_run (k : Socket) : (State.afterReset cause pins draws pending).run k = none :=
  look_tab16 _ k

theorem afterReset_slot (i : SlotId) : (State.afterReset cause pins draws pending).slot i = .reset :=
  look_tab8 _ i

/-- No socket runs after a reset. -/
theorem afterReset_state (k : Socket) :
    ((State.afterReset cause pins draws pending).sock k).state = .empty := by
  rw [afterReset_sock]
  rfl

theorem afterReset_runOk : RunOk (.afterReset cause pins draws pending) := by
  refine (runOk_iff _).mpr ⟨fun k hk => ?_, nofun⟩
  have hidle : busyIn ((State.afterReset cause pins draws pending).sock k).state = true := hk
  rw [afterReset_state] at hidle
  cases hidle

theorem afterReset_railsOk : RailsOk (.afterReset cause pins draws pending) := by
  intro k _
  refine ⟨?_, afterReset_run _ _ _ _ k⟩
  rw [bothOff, afterReset_rail, afterReset_rail]
  rfl

theorem afterReset_heatOk : HeatOk (.afterReset cause pins draws pending) := by
  intro k _
  refine ⟨?_, look_tab16 _ k, look_tab16 _ k, look_tab16 _ k⟩
  have h : look (State.afterReset cause pins draws pending).heat k = .reset := look_tab16 _ k
  rw [h]
  rfl

theorem afterReset_windowOk : WindowOk (.afterReset cause pins draws pending) := by
  intro k hk
  have h : look (State.afterReset cause pins draws pending).mon k = .reset := look_tab16 _ k
  refine absurd ?_ hk
  unfold windowOf
  rw [h]
  rfl

theorem afterReset_busOk : BusOk (.afterReset cause pins draws pending) := by
  intro i
  rw [afterReset_slot]
  exact ⟨SlotState.noConfusion, nofun⟩

theorem afterReset_logOk : LogOk (.afterReset cause pins draws pending) := ⟨Nat.zero_le _, nofun⟩

theorem afterReset_policyOk : PolicyOk (.afterReset cause pins draws pending) := by
  intro f
  have h : (State.afterReset cause pins draws pending).policy = resetPolicy := rfl
  rw [h]
  cases f <;> decide

theorem afterReset_risingOk : RisingOk (.afterReset cause pins draws pending) := by
  have hcount : (State.afterReset cause pins draws pending).risingCount = 0 := by
    rw [risingCount_eq_sum, ← sumSockets_zero]
    refine sumSockets_congr fun k => ?_
    rw [risingOf_eq, afterReset_rail, afterReset_rail]
    rfl
  rw [RisingOk, hcount]
  exact Nat.zero_le _

end AfterReset

/-- Settles O6: the state after reset is one of the states after a reset. -/
theorem afterResetEveryInvariantHolds : Obligations.AfterResetEveryInvariantHolds :=
  ⟨afterReset_runOk _ _ _ _, afterReset_railsOk _ _ _ _, afterReset_heatOk _ _ _ _,
    afterReset_windowOk _ _ _ _, afterReset_busOk _ _ _ _, afterReset_logOk _ _ _ _,
    afterReset_policyOk _ _ _ _, afterReset_risingOk _ _ _ _⟩

/-- In a reset every output is held off, whatever the blocks hold. -/
theorem outputsOff_of_resetting {s : State} (h : s.resetting ≠ none) : OutputsOff s := by
  have hheld : s.resetting.isNone = false := by
    obtain ⟨met, hmet⟩ := Option.ne_none_iff_exists'.mp h
    rw [hmet]
    rfl
  simp [OutputsOff, State.railEnable, State.setpointCode, State.heaterOutput, State.selects,
    State.storeOutput, State.twoWire, State.senseSelect, State.attn, State.driverOn, hheld]

/-- Settles O4: the three causes begin the reset by definition; every other command waits it out. -/
theorem resetCausesHoldEveryOutputOff : Obligations.ResetCausesHoldEveryOutputOff := by
  intro s
  refine ⟨rfl, rfl, rfl, outputsOff_of_resetting, fun hr c hpower hline hclock hend => ?_⟩
  have hc : isResetCommand c = false := by
    cases c with
    | powerOnReset => exact absurd rfl hpower
    | resetNAsserted => exact absurd rfl hline
    | clockLoss => exact absurd rfl hclock
    | resetEnd pins => exact absurd rfl (hend pins)
    | _ => rfl
  rw [exec_eq_outsideReset hc, outsideReset_held _ hr]

theorem execResetEnd_none (pins : Pins) {s : State} (h : s.resetting = none) :
    exec (.resetEnd pins) s = .next s := by
  show execResetEnd pins s = .next s
  rw [execResetEnd, h]

theorem execResetEnd_some (pins : Pins) {s : State} {met : ResetCauses} (h : s.resetting = some met) :
    exec (.resetEnd pins) s = .next (.afterReset (restartCause met) pins s.draws s.pending) := by
  show execResetEnd pins s = _
  rw [execResetEnd, h]

/-- Settles O5: RESET_END answers the state after a reset, which is read block by block. -/
theorem resetEndGivesTheAfterResetState : Obligations.ResetEndGivesTheAfterResetState := by
  intro pins s
  refine ⟨execResetEnd_none pins, fun met hmet => ⟨_, execResetEnd_some pins hmet, ?_⟩⟩
  generalize hq : s.pending = q
  generalize s.draws = d
  have hsocket := fun k => And.intro (afterReset_sock (restartCause met) pins d q k)
    (afterReset_run (restartCause met) pins d q k)
  have hslot := afterReset_slot (restartCause met) pins d q
  refine ⟨rfl, rfl, rfl, rfl, rfl, rfl, fun k => ?_, rfl, rfl, rfl, rfl, rfl, rfl, rfl, rfl, rfl, hslot,
    rfl, rfl, rfl, rfl, rfl, rfl, rfl, rfl, rfl, fun k => look_tab16 _ k, rfl, rfl, rfl, rfl, rfl, rfl,
    rfl, rfl, rfl, rfl, rfl, rfl⟩
  exact ⟨(hsocket k).1, look_tab16 _ k, (hsocket k).2, look_tab16 _ k, look_tab16 _ k, look_tab16 _ k,
    look_tab16 _ k, look_tab16 _ k, look_tab16 _ k⟩

/-! ### What a command and a step make of the view -/

theorem beginReset_view (add : ResetCauses → ResetCauses) (s : State) : view (beginReset add s) = view s :=
  rfl

/-- A command leads to what it answers, ticks the part, or ends a reset. -/
theorem exec_leads {c : Instr} {s t : State} (h : exec c s = .next t) :
    Leads s t ∨ t = takeTick s
      ∨ ∃ cause pins, t = .afterReset cause pins s.draws s.pending := by
  rcases exec_cases c s with he | ⟨add, he⟩ | ⟨cause, pins, he⟩ | ⟨hc, hr, he⟩
  all_goals
    rw [he] at h
    injection h with h
    subst h
  · exact .inl (leads_refl s)
  · exact .inl (leads_of_view (beginReset_view add s))
  · exact .inr (.inr ⟨cause, pins, rfl⟩)
  · by_cases htick : c = .tick
    · subst htick
      exact .inr (.inl rfl)
    · exact .inl (effect_leads htick s)

/-- Settles O3: every command answers a state, and none touches the queue. -/
theorem everyCommandCompletesAndKeepsTheQueue : Obligations.EveryCommandCompletesAndKeepsTheQueue := by
  intro c s
  have hcompletes : ∃ t, exec c s = .next t := by
    rcases exec_cases c s with he | ⟨_, he⟩ | ⟨_, _, he⟩ | ⟨_, _, he⟩ <;> exact ⟨_, he⟩
  obtain ⟨t, ht⟩ := hcompletes
  refine ⟨t, ht, ?_⟩
  rcases exec_leads ht with h | h | ⟨cause, pins, h⟩
  · exact Moves.pending h
  · rw [h]
    exact congrArg View.pending (takeTick_view s)
  · rw [h]
    rfl

/-- A step is a command, or nothing, in a state that differs from its own in the queue at most. -/
theorem step_command {s t : State} (h : StepsTo s t) :
    ∃ u, view u = { view s with pending := u.pending } ∧ u.mode = s.mode
      ∧ ((∃ c, exec c u = .next t) ∨ t = u) := by
  rcases step_cases h with ⟨c, rest, -, hexec⟩ | ⟨-, -, e, -, hexec | hexec⟩ | ⟨-, -, ht⟩ | ⟨-, ht⟩
  · exact ⟨{ s with pending := rest }, rfl, rfl, .inl ⟨c, hexec⟩⟩
  · exact ⟨s, rfl, rfl, .inl ⟨e, hexec⟩⟩
  · exact ⟨{ s with draws := s.draws + 1 }, rfl, rfl, .inl ⟨e, hexec⟩⟩
  · exact ⟨{ s with now := s.now + 1 }, rfl, rfl, .inr ht⟩
  · exact ⟨s, rfl, rfl, .inr ht⟩

/-- What every move keeps and every reset establishes, every step keeps: a property of views that reads
neither the queue nor the credits. -/
theorem step_keeps {P : View → Prop} (hmove : ∀ v w, Move v w → P v → P w)
    (hdata : ∀ v p c, P v → P { v with pending := p, credit := c })
    (hreset : ∀ cause pins d q, P (view (.afterReset cause pins d q))) {s t : State} (h : StepsTo s t)
    (hs : P (view s)) : P (view t) := by
  obtain ⟨u, hview, -, hstep⟩ := step_command h
  have hu : P (view u) := by
    rw [hview]
    exact hdata (view s) u.pending (view s).credit hs
  rcases hstep with ⟨c, hexec⟩ | ht
  · rcases exec_leads hexec with hleads | ht | ⟨cause, pins, ht⟩
    · exact Moves.keep hmove hleads hu
    · rw [ht, takeTick_view]
      exact hdata (view u) (view u).pending _ hu
    · rw [ht]
      exact hreset cause pins u.draws u.pending
  · rw [ht]
    exact hu

/-! ### The invariants of every step -/

/-- Settles O54: every kind of change keeps `RunOk`. -/
theorem everyStepKeepsRunningInRunningModes : Obligations.EveryStepKeepsRunningInRunningModes :=
  fun s t hs h => (runOk_iff t).mpr (step_keeps (P := View.RunOk) (fun _ _ => Move.runOk)
    (fun _ _ _ hv => hv) (fun _ _ _ _ => (runOk_iff _).mp (afterReset_runOk _ _ _ _)) h
    ((runOk_iff s).mp hs))

/-- What is kept together with `RunOk`, which every step keeps by itself. -/
theorem step_keeps_running {P : View → Prop} (hmove : ∀ v w, Move v w → v.RunOk → P v → P w)
    (hdata : ∀ v p c, P v → P { v with pending := p, credit := c })
    (hreset : ∀ cause pins d q, P (view (.afterReset cause pins d q))) {s t : State} (h : StepsTo s t)
    (hrun : RunOk s) (hs : P (view s)) : P (view t) :=
  (step_keeps (P := fun v => v.RunOk ∧ P v)
    (fun v w hm hv => ⟨hm.runOk hv.1, hmove v w hm hv.1 hv.2⟩)
    (fun v p c hv => ⟨hv.1, hdata v p c hv.2⟩)
    (fun cause pins d q => ⟨(runOk_iff _).mp (afterReset_runOk _ _ _ _), hreset cause pins d q⟩) h
    ⟨(runOk_iff s).mp hrun, hs⟩).2

/-- Settles O55: with `RunOk` every kind of change keeps `RailsOk`. -/
theorem everyStepKeepsRailsOffOutsideRuns : Obligations.EveryStepKeepsRailsOffOutsideRuns :=
  fun s t hrun hs h => (railsOk_iff t).mpr (step_keeps_running (P := View.RailsOk)
    (fun _ _ hm => hm.railsOk) (fun _ _ _ hv => hv)
    (fun _ _ _ _ => (railsOk_iff _).mp (afterReset_railsOk _ _ _ _)) h hrun ((railsOk_iff s).mp hs))

/-- Settles O56: with `RunOk` every kind of change keeps `HeatOk`. -/
theorem everyStepKeepsHeatersOffOutsideRuns : Obligations.EveryStepKeepsHeatersOffOutsideRuns :=
  fun s t hrun hs h => (heatOk_iff t).mpr (step_keeps_running (P := View.HeatOk)
    (fun _ _ hm => hm.heatOk) (fun _ _ _ hv => hv)
    (fun _ _ _ _ => (heatOk_iff _).mp (afterReset_heatOk _ _ _ _)) h hrun ((heatOk_iff s).mp hs))

/-- Settles O57: with `RunOk` every kind of change keeps `WindowOk`. -/
theorem everyStepKeepsWindowsInStressing : Obligations.EveryStepKeepsWindowsInStressing :=
  fun s t hrun hs h => (windowOk_iff t).mpr (step_keeps_running (P := View.WindowOk)
    (fun _ _ hm => hm.windowOk) (fun _ _ _ hv => hv)
    (fun _ _ _ _ => (windowOk_iff _).mp (afterReset_windowOk _ _ _ _)) h hrun
    ((windowOk_iff s).mp hs))

/-- Settles O58: every kind of change keeps `BusOk`. -/
theorem everyStepKeepsOneBurstOnTheBus : Obligations.EveryStepKeepsOneBurstOnTheBus :=
  fun _ _ hs h => step_keeps (P := View.busOk) (fun _ _ => Move.busOk) (fun _ _ _ hv => hv)
    (fun _ _ _ _ => afterReset_busOk _ _ _ _) h hs

/-- Settles O59: every kind of change keeps `LogOk` and `PolicyOk`. -/
theorem everyStepKeepsLogAndPolicyInRange : Obligations.EveryStepKeepsLogAndPolicyInRange :=
  fun _ _ h => ⟨
    step_keeps (P := View.logOk) (fun _ _ => Move.logOk) (fun _ _ _ hv => hv)
      (fun _ _ _ _ => afterReset_logOk _ _ _ _) h,
    step_keeps (P := View.policyOk) (fun _ _ => Move.policyOk) (fun _ _ _ hv => hv)
      (fun _ _ _ _ => afterReset_policyOk _ _ _ _) h⟩

/-- Settles O60: with `RunOk` and `RailsOk` every kind of change keeps `RisingOk`. -/
theorem everyStepKeepsRisesWithinTheInrushLimit : Obligations.EveryStepKeepsRisesWithinTheInrushLimit :=
  fun s t hrun hrails hs h => (risingOk_iff t).mpr (step_keeps_running
    (P := fun v => v.RailsOk ∧ v.RisingOk)
    (fun _ _ hm hr hv => ⟨hm.railsOk hr hv.1, hm.risingOk hr hv.1 hv.2⟩) (fun _ _ _ hv => hv)
    (fun _ _ _ _ => ⟨(railsOk_iff _).mp (afterReset_railsOk _ _ _ _),
      (risingOk_iff _).mp (afterReset_risingOk _ _ _ _)⟩) h hrun
    ⟨(railsOk_iff s).mp hrails, (risingOk_iff s).mp hs⟩).2

/-- Settles O53: moves clear a credit or leave it, a reset clears it, and a tick raises it (R152). -/
theorem creditNeverFallsButWhenCleared : Obligations.CreditNeverFallsButWhenCleared := by
  intro s t hs h k
  obtain ⟨u, hview, hmode, hstep⟩ := step_command h
  have hcredit : (u.sock k).credit = (s.sock k).credit := congrFun (congrArg View.credit hview) k
  have hstate : (u.sock k).state = (s.sock k).state := congrFun (congrArg View.state hview) k
  rw [← hcredit, ← hstate, ← hmode]
  have hmax : (u.sock k).credit ≤ 4294967295 := hcredit ▸ hs k
  have hcleared : ∀ {n}, n = (u.sock k).credit ∨ n = 0 → n ≤ 4294967295 ∧ (n = (u.sock k).credit
      ∨ ((u.sock k).credit < n ∧ u.mode = .run ∧ (u.sock k).state = .stressing) ∨ n = 0) := by
    rintro n (he | he)
    · exact ⟨he ▸ hmax, .inl he⟩
    · exact ⟨he ▸ Nat.zero_le _, .inr (.inr he)⟩
  rcases hstep with ⟨c, hexec⟩ | ht
  · rcases exec_leads hexec with hleads | ht | ⟨cause, pins, ht⟩
    · exact hcleared (Moves.credit hleads k)
    · obtain ⟨hle, hcases⟩ := takeTick_credit hmax
      rw [ht]
      exact ⟨hle, hcases.imp_right .inl⟩
    · refine hcleared (.inr ?_)
      rw [ht, afterReset_sock]
      rfl
  · exact hcleared (.inl (by rw [ht]))

end Sys2Proof.Machine
end

section
/-! SUPPORT. The proofs of chapter 12, the slot link: how bytes make a frame, and how a frame is dispatched. -/

namespace Sys2Proof.Machine

/-! ### The receive state (R166) -/

theorem takeLine_hunt {s : State} (h : s.link.rx = .hunt) (b : Byte) :
    takeLine (.byte b) s = (if b = 0xC3#8 then
        { s with link :=
          { s.link with rx := .receiving, buffer := [b], gapDeadline := some (s.now + 2000) } }
      else s)
    ∧ takeLine .framingError s = s ∧ gapExpires s = s ∧ replyEnds s = s := by
  simp only [takeLine, gapExpires, replyEnds, h]
  exact ⟨rfl, trivial, trivial, trivial⟩

theorem takeLine_replying {s : State} (h : s.link.rx = .replying) (b : Byte) :
    takeLine (.byte b) s = s ∧ takeLine .framingError s = s ∧ gapExpires s = s
    ∧ replyEnds s = { s with link := { s.link.hunting with tx := [] } } := by
  simp only [takeLine, gapExpires, replyEnds, h]
  exact ⟨trivial, trivial, trivial, rfl⟩

theorem takeLine_receiving {s : State} (h : s.link.rx = .receiving) (b : Byte) :
    takeLine (.byte b) s = receiveByte b s ∧ takeLine .framingError s = discardFrame s
    ∧ gapExpires s = discardFrame s ∧ replyEnds s = s := by
  simp only [takeLine, gapExpires, replyEnds, h]
  trivial

theorem discardFrame_eq (s : State) : discardFrame s = { s with link := s.link.hunting } := rfl

/-- The part with a byte more of a frame, the gap timer loaded (R166). -/
def lengthened (f : List Byte) (s : State) : State :=
  { s with link := { s.link with buffer := f, gapDeadline := some (s.now + 2000) } }

/-- A length above 200 discards the frame. -/
theorem receiveByte_long {b : Byte} {s : State} (hlen : 3 ≤ (s.link.buffer ++ [b]).length)
    (h : 200 < byteAt (s.link.buffer ++ [b]) 2) : receiveByte b s = discardFrame s :=
  if_pos ⟨hlen, h⟩

/-- A frame whose length is not known yet, or not reached, grows. -/
theorem receiveByte_grows {b : Byte} {s : State} (h : (s.link.buffer ++ [b]).length < 3
      ∨ (byteAt (s.link.buffer ++ [b]) 2 ≤ 200
        ∧ (s.link.buffer ++ [b]).length < byteAt (s.link.buffer ++ [b]) 2 + 7)) :
    receiveByte b s = lengthened (s.link.buffer ++ [b]) s :=
  (if_neg (by omega)).trans (if_neg (by omega))

/-- A frame that has reached its length is complete. -/
theorem receiveByte_completes {b : Byte} {s : State} (h : byteAt (s.link.buffer ++ [b]) 2 ≤ 200)
    (hlen : (s.link.buffer ++ [b]).length = byteAt (s.link.buffer ++ [b]) 2 + 7) :
    receiveByte b s = completeFrame (s.link.buffer ++ [b]) (lengthened (s.link.buffer ++ [b]) s) :=
  (if_neg (by omega)).trans (if_pos (by omega))

/-- Settles O7: by the receive state; in RECEIVING by the length byte, where it has arrived, and the CRC. -/
theorem theLinkTakesBytesByReceiveState : Obligations.TheLinkTakesBytesByReceiveState := by
  intro b s hr
  have hline (x : LineItem) : exec (.lineByte x) s = .next (takeLine x s) :=
    exec_effect (.lineByte x) rfl hr
  have hgap : exec .gapTimerExpiry s = .next (gapExpires s) := exec_effect .gapTimerExpiry rfl hr
  have hend : exec .replyEnd s = .next (replyEnds s) := exec_effect .replyEnd rfl hr
  rw [hline, hline, hgap, hend]
  refine ⟨fun h => ?_, fun h => ?_, fun h => ?_⟩
  · obtain ⟨hbyte, herror, hexpires, hends⟩ := takeLine_hunt h b
    rw [hbyte, herror, hexpires, hends]
    exact ⟨rfl, rfl, rfl, rfl⟩
  · obtain ⟨hbyte, herror, hexpires, hends⟩ := takeLine_receiving h b
    rw [hbyte, herror, hexpires, hends]
    refine ⟨rfl, rfl, rfl, fun hlen hlong => ?_, fun hgrows => ?_, fun n hn hle hlen hcrc => ?_⟩
    · rw [receiveByte_long hlen hlong, discardFrame_eq]
    · rw [receiveByte_grows hgrows, lengthened]
    · subst hn
      have hmatch : crcMatches (s.link.buffer ++ [b]) = false := by
        unfold crcMatches
        have htail : (s.link.buffer ++ [b]).length - 2 = byteAt (s.link.buffer ++ [b]) 2 + 5 := by omega
        simpa only [htail, beq_eq_false_iff_ne] using hcrc
      rw [receiveByte_completes hle hlen]
      exact congrArg _ (if_pos hmatch)
  · obtain ⟨hbyte, herror, hexpires, hends⟩ := takeLine_replying h b
    rw [hbyte, herror, hexpires, hends]
    exact ⟨rfl, rfl, rfl, rfl⟩

/-! ### The fields of a frame (R165) -/

theorem byteAt_ofNat (l r : List Byte) {x : Nat} (h : x < 256) :
    byteAt (l ++ BitVec.ofNat 8 x :: r) l.length = x := by
  simp [byteAt, Nat.mod_eq_of_lt h]

/-- Address, payload length, kind, tag and payload of a frame are read back. -/
theorem frame_fields {a kind tag : Nat} {p : List Byte} (hp : p.length ≤ 200) (ha : a < 256)
    (hk : kind < 256) (ht : tag < 256) :
    let f := frame a kind tag p
    byteAt f 1 = a ∧ byteAt f 2 = p.length ∧ byteAt f 3 = kind ∧ byteAt f 4 = tag
      ∧ (f.drop 5).take p.length = p :=
  ⟨byteAt_ofNat [0xC3#8] _ ha, byteAt_ofNat [0xC3#8, BitVec.ofNat 8 a] _ (by omega),
    byteAt_ofNat [0xC3#8, BitVec.ofNat 8 a, BitVec.ofNat 8 p.length] _ hk,
    byteAt_ofNat [0xC3#8, BitVec.ofNat 8 a, BitVec.ofNat 8 p.length, BitVec.ofNat 8 kind] _ ht,
    List.take_left⟩

/-- What a frame with a matching CRC becomes. -/
theorem completeFrame_frame {a kind tag : Nat} {p : List Byte} (hp : p.length ≤ 200) (ha : a < 256)
    (hk : kind < 256) (ht : tag < 256) (s : State) :
    completeFrame (frame a kind tag p) s =
      if a = 0 then dispatchBroadcast kind p (discardFrame s)
      else if a = s.link.address then dispatchFrame kind tag p s
      else discardFrame s := by
  obtain ⟨haddress, hlength, hkind, htag, hpayload⟩ := frame_fields hp ha hk ht
  unfold completeFrame
  rw [haddress, hlength, hkind, htag, hpayload, frame_crc]
  exact if_neg Bool.noConfusion

/-! ### Requests (R167) -/

/-- The kind byte of a request kind (R170). -/
def RequestKind.byte : RequestKind → Nat
  | .identify => 0x01 | .getBoardStatus => 0x02 | .attach => 0x03 | .setBoardField => 0x04
  | .getBoardField => 0x05 | .setProfile => 0x10 | .getProfile => 0x11 | .setPolicy => 0x12
  | .getPolicy => 0x13 | .setSocketParams => 0x14 | .getSocket => 0x15 | .setSlot => 0x20
  | .getSlot => 0x21 | .sendSlot => 0x22 | .abortSlot => 0x23 | .setTimers => 0x24 | .start => 0x30
  | .pause => 0x31 | .resume => 0x32 | .shutdown => 0x33 | .quench => 0x34 | .clear => 0x35
  | .startSocket => 0x40 | .stopSocket => 0x41 | .retrySocket => 0x42 | .clearSocket => 0x43
  | .readFails => 0x50 | .setAlarmEnables => 0x51 | .readAlarms => 0x52

theorem requestKind_byte {kind : Nat} {k : RequestKind} (h : requestKind kind = some k) :
    kind = k.byte := by
  unfold requestKind at h
  split at h
  all_goals cases h
  all_goals rfl

/-- The broadcasts that are acted on (R167). -/
theorem dispatchBroadcast_eq (kind : Nat) (p : List Byte) (s : State) :
    dispatchBroadcast kind p s =
      if kind = 0x34 ∧ p = [] then quench true s
      else if kind = 0x31 ∧ p = [] then pause true s
      else if kind = 0x32 ∧ p = [] then resume true s
      else s := by
  unfold dispatchBroadcast
  by_cases hp : p = []
  · simp only [hp, List.length_nil, ne_eq, not_true_eq_false, if_false, and_true]
    by_cases hquench : kind = 0x34
    · subst hquench; rfl
    by_cases hpause : kind = 0x31
    · subst hpause; rfl
    by_cases hresume : kind = 0x32
    · subst hresume; rfl
    rw [if_neg hquench, if_neg hpause, if_neg hresume]
    split
    · rename_i h; exact absurd (requestKind_byte h) hquench
    · rename_i h; exact absurd (requestKind_byte h) hpause
    · rename_i h; exact absurd (requestKind_byte h) hresume
    · rfl
  · simp only [hp, and_false, if_false]
    exact if_pos fun h => hp (List.eq_nil_of_length_eq_zero h)

/-! ### Every request is answered (R168) -/

/-- An answer stands in the state. -/
def Answers (t : State) : Prop := ∃ x, t.answer = some x

theorem answers_reply (s : State) (r : Result) (p : List Byte) : Answers (s.reply r p) := ⟨_, rfl⟩

theorem answers_refuse (s : State) (r : Result) : Answers (s.refuse r) := ⟨_, rfl⟩

theorem answers_ite {c : Prop} [Decidable c] {s t : State} (hs : Answers s) (ht : Answers t) :
    Answers (if c then s else t) := by
  split
  · exact hs
  · exact ht

theorem attach_answers (s : State) : Answers (attach s) :=
  answers_ite (answers_refuse _ _) (answers_ite (answers_refuse _ _)
    (answers_ite (answers_refuse _ _) (answers_reply _ _ _)))

theorem setField_answers (code index : Byte) (f : Field) (v : Int) (s : State) :
    Answers (setField code index f v s) := by
  unfold setField
  split
  · exact answers_ite (answers_refuse _ _) (answers_reply _ _ _)
  · exact answers_ite (answers_refuse _ _) (answers_ite (answers_refuse _ _) (answers_reply _ _ _))
  · exact answers_refuse _ _

theorem setBoardField_answers (code index : Byte) (v : Word) (s : State) :
    Answers (setBoardField code index v s) := by
  refine answers_ite (answers_refuse _ _) (answers_ite (answers_refuse _ _) ?_)
  split
  · exact answers_refuse _ _
  · exact setField_answers _ _ _ _ _

theorem getBoardField_answers (code index : Byte) (s : State) : Answers (getBoardField code index s) := by
  unfold getBoardField
  split
  · exact answers_refuse _ _
  · exact ⟨_, rfl⟩

theorem setProfile_answers (p : Byte) (l : List RawStep) (s : State) : Answers (setProfile p l s) := by
  refine answers_ite (answers_refuse _ _) ?_
  split
  · exact answers_refuse _ _
  · refine answers_ite (answers_refuse _ _) ?_
    split
    · exact answers_refuse _ _
    · exact answers_reply _ _ _

theorem getProfile_answers (p : Byte) (s : State) : Answers (getProfile p s) := by
  unfold getProfile
  split
  · exact answers_refuse _ _
  · exact answers_reply _ _ _

theorem setPolicy_answers (kind action threshold bin : Byte) (s : State) :
    Answers (setPolicy kind action threshold bin s) := by
  refine answers_ite (answers_refuse _ _) ?_
  split
  · exact answers_ite (answers_refuse _ _) (answers_ite (answers_refuse _ _) (answers_reply _ _ _))
  · exact answers_refuse _ _

theorem socketRequest_answers {body : Socket → State → State} (hbody : ∀ k s, Answers (body k s))
    (n : Byte) (accepted : Bool) (s : State) : Answers (socketRequest n accepted body s) := by
  unfold socketRequest
  split
  · exact answers_refuse _ _
  · exact answers_ite (answers_refuse _ _) (answers_ite (answers_refuse _ _)
      (answers_ite (answers_refuse _ _) (answers_ite (answers_refuse _ _) (hbody _ _))))

theorem setParamsBody_answers (v : ParamValues) (k : Socket) (s : State) :
    Answers (setParamsBody v k s) := by
  unfold setParamsBody
  split
  · exact answers_ite (answers_refuse _ _) ⟨_, rfl⟩
  · exact answers_refuse _ _

theorem startSocketBody_answers (k : Socket) (s : State) : Answers (startSocketBody k s) :=
  answers_ite (answers_reply _ _ _) (answers_reply _ _ _)

theorem stopSocketBody_answers (k : Socket) (s : State) : Answers (stopSocketBody k s) := by
  unfold stopSocketBody
  split <;> exact answers_reply _ _ _

theorem retrySocketBody_answers (k : Socket) (s : State) : Answers (retrySocketBody k s) := by
  refine answers_ite ?_ (answers_reply _ _ _)
  split
  · exact answers_ite (answers_reply _ _ _) (answers_reply _ _ _)
  all_goals exact answers_reply _ _ _

theorem clearSocketBody_answers (k : Socket) (s : State) : Answers (clearSocketBody k s) :=
  answers_ite (answers_reply _ _ _) (answers_reply _ _ _)

theorem getSocket_answers (n : Byte) (s : State) : Answers (getSocket n s) := by
  unfold getSocket
  split
  · exact answers_refuse _ _
  · exact answers_ite (answers_refuse _ _) ⟨_, rfl⟩

theorem setSlot_answers (n : Byte) (v : SlotValues) (s : State) : Answers (setSlot n v s) := by
  unfold setSlot
  split
  · exact answers_refuse _ _
  · refine answers_ite (answers_refuse _ _) (answers_ite (answers_refuse _ _) ?_)
    split
    · exact answers_ite (answers_refuse _ _) (answers_reply _ _ _)
    · exact answers_refuse _ _

theorem getSlot_answers (n : Byte) (s : State) : Answers (getSlot n s) := by
  unfold getSlot
  split
  · exact answers_refuse _ _
  · exact answers_reply _ _ _

theorem arbiterDecision_answer (s : State) : (arbiterDecision s).answer = s.answer := by
  rw [(arbiterDecision_only s).eq]

theorem sendSlot_answers (n : Byte) (s : State) : Answers (sendSlot n s) := by
  unfold sendSlot
  split
  · exact answers_refuse _ _
  · exact answers_ite (answers_refuse _ _) (answers_ite (answers_refuse _ _)
      ⟨_, arbiterDecision_answer _⟩)

theorem abortSlot_answers (n : Byte) (s : State) : Answers (abortSlot n s) := by
  unfold abortSlot
  split
  · exact answers_refuse _ _
  · exact answers_reply _ _ _

theorem setTimers_answers (a b : Word) (s : State) : Answers (setTimers a b s) :=
  answers_ite ⟨_, rfl⟩ (answers_refuse _ _)

theorem start_answers (s : State) : Answers (start s) := by
  refine answers_ite (answers_refuse _ _) ?_
  split
  · exact answers_reply _ _ _
  · exact answers_reply _ _ _

theorem pause_answers (s : State) : Answers (pause false s) :=
  answers_ite (answers_reply _ _ _) (answers_refuse _ _)

theorem resume_answers (s : State) : Answers (resume false s) :=
  answers_ite (answers_reply _ _ _) (answers_refuse _ _)

theorem shutdown_answers (s : State) : Answers (shutdown s) := by
  unfold shutdown
  split
  · exact answers_reply _ _ _
  · exact answers_reply _ _ _
  all_goals exact answers_refuse _ _

theorem clear_answers (s : State) : Answers (clear s) :=
  answers_ite (answers_refuse _ _) (answers_ite (answers_refuse _ _) (answers_reply _ _ _))

theorem readFails_answers (n : Byte) (s : State) : Answers (readFails n s) :=
  answers_ite (answers_refuse _ _) (answers_reply _ _ _)

theorem setAlarmEnables_answers (latch report : Half) (s : State) :
    Answers (setAlarmEnables latch report s) :=
  answers_ite (answers_refuse _ _) (answers_reply _ _ _)

theorem handOver_answers (p : List Byte) (s : State) (k : RequestKind) : Answers (handOver p s k) := by
  cases k with
  | identify | getBoardStatus | getPolicy | quench | readAlarms => exact ⟨_, rfl⟩
  | attach => exact attach_answers s
  | setBoardField => exact setBoardField_answers _ _ _ s
  | getBoardField => exact getBoardField_answers _ _ s
  | setProfile => exact setProfile_answers _ _ s
  | getProfile => exact getProfile_answers _ s
  | setPolicy => exact setPolicy_answers _ _ _ _ s
  | setSocketParams => exact socketRequest_answers (setParamsBody_answers _) _ _ s
  | getSocket => exact getSocket_answers _ s
  | setSlot => exact setSlot_answers _ _ s
  | getSlot => exact getSlot_answers _ s
  | sendSlot => exact sendSlot_answers _ s
  | abortSlot => exact abortSlot_answers _ s
  | setTimers => exact setTimers_answers _ _ s
  | start => exact start_answers s
  | pause => exact pause_answers s
  | resume => exact resume_answers s
  | shutdown => exact shutdown_answers s
  | clear => exact clear_answers s
  | startSocket => exact socketRequest_answers startSocketBody_answers _ _ s
  | stopSocket => exact socketRequest_answers stopSocketBody_answers _ _ s
  | retrySocket => exact socketRequest_answers retrySocketBody_answers _ _ s
  | clearSocket => exact socketRequest_answers clearSocketBody_answers _ _ s
  | readFails => exact readFails_answers _ s
  | setAlarmEnables => exact setAlarmEnables_answers _ _ s

/-! ### A frame to the own address (R167, R168) -/

/-- `t` with the reply to a frame of `s` going out, built from the answer. -/
def replying (kind tag : Nat) (s t : State) : State :=
  { t with link := { hunt t.link with rx := .replying, tx := match t.answer with
      | some a => replyFrame s.link.address kind tag a
      | none => [] } }

theorem replying_answer {kind tag : Nat} {s t : State} {x : Answer} (h : t.answer = some x) :
    replying kind tag s t = { t with
      link := t.link.sending
        (frame s.link.address (kind + 0x80) tag (put1 x.result.code ++ x.payload)) } := by
  rw [replying, h]
  rfl

theorem dispatchFrame_unknown {kind : Nat} (h : requestKind kind = none) (tag : Nat) (p : List Byte)
    (s : State) : dispatchFrame kind tag p s = replying kind tag s (s.refuse .unknownKind) := by
  unfold dispatchFrame
  rw [h]
  rfl

theorem dispatchFrame_length {kind : Nat} {k : RequestKind} (h : requestKind kind = some k) (tag : Nat)
    {p : List Byte} (hp : p.length ≠ payloadLength p k) (s : State) :
    dispatchFrame kind tag p s = replying kind tag s (s.refuse .length) := by
  unfold dispatchFrame
  rw [h]
  dsimp only
  rw [if_pos hp]
  rfl

theorem dispatchFrame_request {kind : Nat} {k : RequestKind} (h : requestKind kind = some k) (tag : Nat)
    {p : List Byte} (hp : p.length = payloadLength p k) (s : State) :
    dispatchFrame kind tag p s = replying kind tag s (handOver p s k) := by
  unfold dispatchFrame
  rw [h]
  dsimp only
  rw [if_neg (not_not_intro hp)]
  rfl

theorem commandOf_outside (p : List Byte) (k : RequestKind) : isResetCommand (commandOf p k) = false := by
  cases k <;> rfl

/-- Settles O8: by the address, then by the kind, the payload's length and what the command answers. -/
theorem completeFramesAreDispatched : Obligations.CompleteFramesAreDispatched := by
  intro a kind tag p b s hp ha hk ht hr hrx hframe whole waiting
  obtain ⟨-, hlength, -⟩ := frame_fields hp ha hk ht
  have hwhole : lengthened (frame a kind tag p) s = whole := rfl
  have hline : exec (.lineByte (.byte b)) s = .next (completeFrame (frame a kind tag p) whole) := by
    rw [← hwhole, exec_effect (.lineByte (.byte b)) rfl hr, ← hframe]
    exact congrArg _ ((takeLine_receiving hrx b).1.trans (receiveByte_completes
      (by rw [hframe, hlength]; exact hp) (by rw [hframe, hlength, frame_length])))
  rw [hline, completeFrame_frame hp ha hk ht]
  refine ⟨fun hne hother => ?_, fun hzero => ?_, fun hne hown => ?_⟩
  · exact congrArg _ ((if_neg hne).trans (if_neg hother))
  · have hexec (c : Instr) (hc : isResetCommand c = false) : exec c waiting = .next (effectOf c waiting) :=
      exec_effect c hc hr
    rw [if_pos hzero, dispatchBroadcast_eq, hexec (.quench true) rfl, hexec (.pause true) rfl,
      hexec (.resume true) rfl]
    simp only [apply_ite Host.Outcome.next]
    rfl
  · have haddress : whole.link.address = a := hown.symm
    rw [if_neg hne, if_pos hown]
    refine ⟨fun hkind => ?_, fun k hkind => ⟨fun hbad => ?_, fun hgood => ?_⟩⟩
    · rw [dispatchFrame_unknown hkind, replying_answer rfl, haddress]
      rfl
    · rw [dispatchFrame_length hkind _ hbad, replying_answer rfl, haddress]
      rfl
    · obtain ⟨x, hx⟩ := handOver_answers p whole k
      refine ⟨handOver p whole k, x, ?_, hx, ?_⟩
      · rw [handOver_eq]
        exact exec_effect _ (commandOf_outside p k) hr
      · rw [dispatchFrame_request hkind _ hgood, replying_answer hx, haddress]

end Sys2Proof.Machine
end

section
/-! SUPPORT. The proofs of chapter 12, the requests that read: the widths of the layouts. -/

namespace Sys2Proof.Machine

/-! ### Widths -/

/-- The number of bytes of a part. -/
def Part.width : Part → Nat
  | .sent b => b.length
  | .unstated n => n

/-- The number of bytes of a layout. -/
def widthOf (l : List Part) : Nat := (l.map Part.width).sum

theorem widthOf_append (a b : List Part) : widthOf (a ++ b) = widthOf a + widthOf b := by
  rw [widthOf, List.map_append, List.sum_append]
  rfl

/-- A payload has the width of its layout. -/
theorem laid_length {l : List Part} {x : List Byte} (h : Laid l x) : x.length = widthOf l := by
  induction l generalizing x with
  | nil =>
    rw [show x = [] from h]
    rfl
  | cons p rest ih =>
    rw [widthOf, List.map_cons, List.sum_cons]
    cases p with
    | sent b =>
      obtain ⟨y, rfl, hy⟩ := h
      rw [List.length_append, ih hy]
      rfl
    | unstated n =>
      obtain ⟨a, y, rfl, ha, hy⟩ := h
      rw [List.length_append, ih hy, ha]
      rfl

@[simp] theorem width_sent (b : List Byte) : (Part.sent b).width = b.length := rfl

@[simp] theorem width_code (x : Option Nat) : (codePart x).width = 1 := rfl

theorem width_zero {n : Nat} {o : Option (List Byte)} (h : ∀ b, o = some b → b.length = n) :
    (zeroPart n o).width = n := by
  cases o with
  | none => exact List.length_replicate
  | some b => exact h b rfl

theorem width_open {n : Nat} {o : Option (List Byte)} (h : ∀ b, o = some b → b.length = n) :
    (openPart n o).width = n := by
  cases o with
  | none => rfl
  | some b => exact h b rfl

/-- A coding of fixed width gives fields of that width, present or not. -/
@[simp] theorem width_zero_map {α : Type} {n : Nat} {f : α → List Byte} (o : Option α)
    (h : ∀ a, (f a).length = n) : (zeroPart n (o.map f)).width = n := by
  refine width_zero fun b hb => ?_
  obtain ⟨a, -, rfl⟩ := Option.map_eq_some_iff.mp hb
  exact h a

@[simp] theorem width_open_map {α : Type} {n : Nat} {f : α → List Byte} (o : Option α)
    (h : ∀ a, (f a).length = n) : (openPart n (o.map f)).width = n := by
  refine width_open fun b hb => ?_
  obtain ⟨a, -, rfl⟩ := Option.map_eq_some_iff.mp hb
  exact h a

@[simp] theorem put1_length (n : Nat) : (put1 n).length = 1 := rfl
@[simp] theorem put2_length (n : Nat) : (put2 n).length = 2 := rfl
@[simp] theorem put4_length (n : Nat) : (put4 n).length = 4 := rfl
@[simp] theorem put2s_length (x : Int) : (put2s x).length = 2 := rfl
@[simp] theorem put4s_length (x : Int) : (put4s x).length = 4 := rfl

@[simp] theorem width_sample (o : Option Sample) : (samplePart o).width = 6 := by
  cases o <;> rfl

@[simp] theorem width_band (o : Option TickResult) : (bandPart o).width = 1 := by
  unfold bandPart
  split <;> rfl

@[simp] theorem width_window (s : State) (o : Option Window) : (windowPart s o).width = 15 := by
  cases o <;> rfl

/-- Entries of one width, one after the other. -/
theorem flatten_ofFn_length {n w : Nat} {f : Fin n → List Byte} (h : ∀ i, (f i).length = w) :
    (List.ofFn f).flatten.length = n * w := by
  rw [List.length_flatten, List.map_ofFn]
  have hw : List.length ∘ f = fun _ => w := funext h
  rw [hw, List.ofFn_const, List.sum_replicate]
  rfl

theorem flatMap_length_one {α : Type} {f : α → List Byte} (h : ∀ a, (f a).length = 1) (l : List α) :
    (l.flatMap f).length = l.length := by
  rw [List.length_flatMap, funext h, List.map_const', List.sum_replicate_nat, Nat.mul_one]

/-! ### The layout of GetSocket -/

theorem width_rail (k : Socket) (r : RailKind) (s : State) : widthOf (railParts k r s) = 10 := by
  simp only [railParts, widthOf, List.map_cons, List.map_nil, width_sent, Option.map_map, List.length_append,
    put1_length, put2_length, List.sum_cons, List.sum_nil]
  rw [width_open_map (n := 2) _ fun _ => rfl, width_zero_map (n := 2) _ fun _ => rfl]
  rfl

theorem width_run (s : State) (o : Option Run) : widthOf (runParts s o) = 6 := by
  cases o with
  | none => rfl
  | some x =>
    simp only [runParts, widthOf, List.map_cons, List.map_nil, width_sent, List.length_append, put1_length,
      List.sum_cons, List.sum_nil]
    rw [width_open]
    · rfl
    · intro b hb
      split at hb
      · injection hb with hb
        rw [← hb]
        rfl
      all_goals cases hb

theorem width_socketHead (k : Socket) (s : State) : widthOf (socketHeadParts k s) = 91 := by
  have hepisode := flatten_ofFn_length (w := 1) (f := fun i : Fin 8 => put1 (look (s.sock k).episode i))
    fun _ => rfl
  have hcumulative := flatten_ofFn_length (w := 2)
    (f := fun i : Fin 8 => put2 (look (s.sock k).cumulative i)) fun _ => rfl
  simp only [socketHeadParts, widthOf, List.map_cons, List.map_nil, width_sent, width_code, width_sample,
    width_band, List.length_append, put1_length, put2_length, put4_length, put2s_length, hepisode,
    hcumulative, List.sum_cons, List.sum_nil]
  rw [width_zero_map _ put2_length, width_zero_map (n := 5) _ fun _ => rfl,
    width_zero_map (n := 5) _ fun _ => rfl, width_zero_map _ put4_length]
  rfl

theorem width_socketTail (k : Socket) (s : State) : widthOf (socketTailParts k s) = 33 := by
  simp only [socketTailParts, widthOf, List.map_cons, List.map_nil, width_sent, width_code, width_window,
    List.length_append, put1_length, put2_length, put4_length, List.sum_cons, List.sum_nil]
  rw [width_zero_map _ put2s_length]
  rfl

/-- 150 bytes after the result code (R171). -/
theorem width_socket (k : Socket) (s : State) : widthOf (socketLayout k s) = 150 := by
  rw [socketLayout, widthOf_append, widthOf_append, widthOf_append, widthOf_append, width_socketHead,
    width_rail, width_rail, width_run, width_socketTail]

/-! ### The layout of GetBoardStatus -/

theorem width_serial {chars : List Byte} (h : chars.length ≤ 16) : (serialPart chars).width = 17 := by
  simp only [serialPart, width_sent, List.length_append, put1_length, List.length_replicate]
  omega

theorem serial_le {α : Type} {o : Option α} {f : α → List Byte} (h : ∀ y, o = some y → (f y).length ≤ 16) :
    ((o.map f).getD []).length ≤ 16 := by
  cases o with
  | none => exact Nat.zero_le _
  | some y => exact h y rfl

theorem width_statusBoard {s : State} (hfields : ∀ y, s.board.fields = some y → y.serial.length ≤ 16)
    (hlast : ∀ y, s.board.last = some y → y.serial.length ≤ 16) : widthOf (statusBoardParts s) = 47 := by
  simp only [statusBoardParts, widthOf, List.map_cons, List.map_nil, width_sent, width_code,
    List.length_append, put1_length, width_serial (serial_le hfields), width_serial (serial_le hlast),
    List.sum_cons, List.sum_nil]
  rw [width_open_map (n := 2) _ fun _ => rfl, width_open_map (n := 2) _ fun _ => rfl,
    width_open_map (n := 2) _ fun _ => rfl]
  rfl

theorem width_statusSupply {s : State} (h : s.waitingList.length ≤ 16) :
    widthOf (statusSupplyParts s) = 41 := by
  rw [waitingList_railsIn] at h
  have hwaiting := flatMap_length_one (f := fun e : Socket × RailKind => put1 (e.1.val * 2 + railCode e.2))
    (fun _ => rfl) (railsIn .waitGrant s)
  simp only [statusSupplyParts, widthOf, List.map_cons, List.map_nil, width_sent, width_sample,
    List.length_append, put1_length, put2_length, put4_length, hwaiting, List.length_replicate,
    List.sum_cons, List.sum_nil]
  rw [width_open_map _ put4s_length]
  omega

theorem width_timer (x : TimerId) (s : State) : widthOf (timerParts x s) = 9 := by
  simp only [timerParts, widthOf, List.map_cons, List.map_nil, width_sent, List.length_append, put1_length,
    put4_length, List.sum_cons, List.sum_nil]
  rw [width_open]
  · rfl
  · intro b hb
    split at hb
    · injection hb with hb
      rw [← hb]
      rfl
    · injection hb with hb
      rw [← hb]
      rfl
    · cases hb

theorem width_statusRun (s : State) : widthOf (statusRunParts s) = 33 := by
  rw [statusRunParts, widthOf_append, widthOf_append, widthOf_append, width_timer, width_timer]
  simp only [widthOf, List.map_cons, List.map_nil, width_sent, width_code, List.length_append, put1_length,
    put4_length, List.sum_cons, List.sum_nil]
  rw [width_open_map (n := 2) _ fun _ => rfl, width_open_map (n := 4) _ fun _ => rfl,
    width_open_map (n := 2) _ fun _ => rfl]
  rfl

/-- 121 bytes after the result code (R171). -/
theorem width_status {s : State} (hfields : ∀ y, s.board.fields = some y → y.serial.length ≤ 16)
    (hlast : ∀ y, s.board.last = some y → y.serial.length ≤ 16) (h : s.waitingList.length ≤ 16) :
    widthOf (statusLayout s) = 121 := by
  rw [statusLayout, widthOf_append, widthOf_append, width_statusBoard hfields hlast, width_statusSupply h,
    width_statusRun]

/-! ### GetBoardField (R33) -/

theorem putOptional_length (site : AbsentSite) (s : State) (o : Option Int) :
    (putOptional site s o).length = 4 := by
  cases o <;> rfl

theorem putOptional_some {site : AbsentSite} {s : State} {o : Option Int} (v : Int) (h : o = some v) :
    putOptional site s o = put4s v := by
  rw [h]
  rfl

/-- Settles O9: each request changes the answer alone, and each answer is its layout. -/
theorem readRequestsOnlyAnswer : Obligations.ReadRequestsOnlyAnswer := by
  intro n index s hr
  have hexec (c : Instr) (hc : isResetCommand c = false) : exec c s = .next (effectOf c s) :=
    exec_effect c hc hr
  refine ⟨hexec .identify rfl, ?_, ?_, fun k hk he => ?_, fun k hk he => ?_, fun hk => ?_,
    fun i hi => ?_, fun hi => ?_, fun f hf => ?_, fun hf => ?_⟩
  · have hlaid := statusBytes_laid s
    refine ⟨_, statusBytes s, hexec .getBoardStatus rfl, rfl, rfl, fun hfields hlast hwaiting => ?_, hlaid⟩
    rw [laid_length hlaid, width_status hfields hlast hwaiting]
  · refine ⟨_, _, hexec .getPolicy rfl, rfl, congrArg State.answer (getPolicy_eq s), ?_, rfl⟩
    rw [flatten_ofFn_length (w := 3) fun _ => rfl]
  · have hlaid := socketBytes_laid k s
    have heffect : effectOf (.getSocket n) s = (s.reply .ok (socketBytes k s)).draw := by
      show getSocket n s = _
      rw [getSocket, hk]
      exact if_neg he
    refine ⟨_, socketBytes k s, (hexec (.getSocket n) rfl).trans (congrArg _ heffect), rfl, rfl, ?_, hlaid⟩
    rw [laid_length hlaid, width_socket]
  · rw [Refuses, hexec (.getSocket n) rfl]
    show Host.Outcome.next (getSocket n s) = _
    rw [getSocket, hk]
    exact congrArg _ (if_pos he)
  · rw [Refuses, hexec (.getSocket n) rfl]
    show Host.Outcome.next (getSocket n s) = _
    rw [getSocket, hk]
    rfl
  · have heffect : effectOf (.getSlot n) s = s.reply .ok (slotBytes i (s.slot i)) := by
      show getSlot n s = _
      rw [getSlot, hi]
    exact ⟨_, _, (hexec (.getSlot n) rfl).trans (congrArg _ heffect), rfl, rfl, rfl, rfl⟩
  · rw [Refuses, hexec (.getSlot n) rfl]
    show Host.Outcome.next (getSlot n s) = _
    rw [getSlot, hi]
    rfl
  · have heffect : effectOf (.getBoardField n index) s = getFieldReply n index f s := by
      show getBoardField n index s = _
      rw [getBoardField, hf]
    exact ⟨_, _, _, _, (hexec (.getBoardField n index) rfl).trans (congrArg _ heffect), rfl, rfl,
      putOptional_length _ _ _, putOptional_length _ _ _, putOptional_length _ _ _, putOptional_some,
      putOptional_some, putOptional_some⟩
  · rw [Refuses, hexec (.getBoardField n index) rfl]
    show Host.Outcome.next (getBoardField n index s) = _
    rw [getBoardField, hf]
    rfl

end Sys2Proof.Machine
end

section
/-! SUPPORT. The proofs of chapter 02, the board table: what ends a read, the identity memory, and the board's
presence. -/

namespace Sys2Proof.Machine

/-! ### A successful read (R27) -/

theorem isNewBoard_iff (x : BoardRecord) (s : State) :
    isNewBoard x s = true ↔ s.board.last ≠ some ⟨x.serial, x.population⟩ := by
  unfold isNewBoard
  cases hlast : s.board.last with
  | none => simp
  | some b =>
    obtain ⟨serial, population⟩ := b
    simp only [ne_eq, decide_not, Bool.or_eq_true, Bool.not_eq_eq_eq_not, Bool.not_true,
      decide_eq_false_iff_not, Option.some.injEq, LastBoard.mk.injEq, not_and_or]

theorem readSucceeds_good {image : List Byte} {x : BoardRecord} {s : State} (mon alm : Half)
    (ha : s.board.attach = .attaching) (h : readImage image = .good x) :
    readSucceeds image mon alm s = installRecord x mon alm s := by
  rw [readSucceeds, ha, h]

/-- Which sockets are fitted is the installed record's to say. -/
theorem tableInstalled_populated (x : BoardRecord) (s : State) (k : Socket) :
    (tableInstalled x s).populated k = inSet x.population k := rfl

/-- The levels taken at an installation (R119). -/
theorem installLevels_mon (fresh : Bool) (mon alm : Half) (s : State) (k : Socket) :
    look (installLevels fresh mon alm s).mon k = { look s.mon k with
      level := if s.populated k then some (if inSet mon k then .high else .low) else none
      alarm := if s.populated k then
        some (alarmLevel k (if inSet alm k then .high else .low) s) else none
      latch := if fresh then false else (look s.mon k).latch } :=
  look_tab16 _ k

/-- A line in the set of those HIGH means an active alarm where the board's active level is HIGH. -/
theorem alarmLevel_line (k : Socket) (b : Bool) (s : State) :
    alarmLevel k (if b then .high else .low) s
      = if b = inSet s.brd.alarmHigh k then .active else .inactive := by
  unfold alarmLevel
  cases b <;> cases inSet s.brd.alarmHigh k <;> rfl

/-- The clamped parameters in the words of R3. -/
theorem newBoardRecord_eq (x : BoardRecord) (k : Socket) (r : SocketRecord) :
    newBoardRecord x k r = { SocketRecord.reset with
      state := if inSet x.population k then .idle else .empty
      params := { r.params with
        target := min x.absLimit r.params.target
        setpoint := ⟨clampNat x.rail.core.spMin x.rail.core.spMax r.params.setpoint.core,
          clampNat x.rail.aux.spMin x.rail.aux.spMax r.params.setpoint.aux⟩ } } := by
  have htarget : (if x.absLimit < r.params.target then x.absLimit else r.params.target)
      = min x.absLimit r.params.target := by omega
  rw [newBoardRecord, newBoardParams, htarget]

/-- Settles O11: the record's table, the records of a new board where it is one, then the levels. -/
theorem aReadRecordIsInstalled : Obligations.AReadRecordIsInstalled := by
  intro image mon alm x s hr ha hgood
  have hexec : exec (.attachReadSuccess image mon alm) s = .next (installRecord x mon alm s) :=
    (exec_effect (.attachReadSuccess image mon alm) rfl hr).trans
      (congrArg _ (readSucceeds_good mon alm ha hgood))
  refine ⟨_, hexec, ?_⟩
  have hinstall : installRecord x mon alm s = installLevels (isNewBoard x s) mon alm
      (if isNewBoard x s then newBoard x (tableInstalled x s) else tableInstalled x s) := rfl
  rw [hinstall]
  cases hnew : isNewBoard x s with
  | true =>
    rw [if_pos rfl]
    have hlevels := installLevels_mon true mon alm (newBoard x (tableInstalled x s))
    refine ⟨rfl, fun _ => ⟨rfl, fun k => ⟨?_, look_tab16 _ k, look_tab16 _ k, ?_⟩⟩,
      fun hsame => absurd hsame ((isNewBoard_iff x s).mp hnew), fun k => ⟨?_, fun hout => ?_, fun hin => ?_⟩,
      rfl⟩
    · exact (look_tab16 _ k).trans (newBoardRecord_eq x k (s.sock k))
    · rw [hlevels k]
      rfl
    · rw [hlevels k]
      rfl
    · have hpopulated : (newBoard x (tableInstalled x s)).populated k = false := hout
      rw [hlevels k, hpopulated]
      exact ⟨rfl, rfl⟩
    · have hpopulated : (newBoard x (tableInstalled x s)).populated k = true := hin
      rw [hlevels k, hpopulated, alarmLevel_line]
      exact ⟨rfl, rfl⟩
  | false =>
    rw [if_neg Bool.false_ne_true]
    have hlevels := installLevels_mon false mon alm (tableInstalled x s)
    refine ⟨rfl, fun hother => ?_, fun _ => ⟨rfl, rfl, rfl, rfl, fun k => ?_⟩,
      fun k => ⟨?_, fun hout => ?_, fun hin => ?_⟩, rfl⟩
    · exact absurd ((isNewBoard_iff x s).mpr hother) (by rw [hnew]; decide)
    · rw [hlevels k]
      rfl
    · rw [hlevels k]
      rfl
    · have hpopulated : (tableInstalled x s).populated k = false := hout
      rw [hlevels k, hpopulated]
      exact ⟨rfl, rfl⟩
    · have hpopulated : (tableInstalled x s).populated k = true := hin
      rw [hlevels k, hpopulated, alarmLevel_line]
      exact ⟨rfl, rfl⟩

/-! ### A failed read (R26, R28) -/

theorem failRead_attaching {s : State} (h : s.board.attach = .attaching) (r : ReadFailure) :
    failRead r s = emptyBoard .failed (some r) s := if_pos h

theorem failRead_stands {s : State} (h : s.board.attach ≠ .attaching) (r : ReadFailure) :
    failRead r s = s := if_neg h

theorem readFailsCheck_bad {m : List Byte} {r : ReadFailure} (h : readImage m = .bad r)
    (hr : r ≠ .noAnswer) (s : State) : readFailsCheck m s = failRead r s := by
  rw [readFailsCheck, h]
  cases r with
  | noAnswer => exact absurd rfl hr
  | badCheck | badVersion | badField => rfl

theorem readFailsCheck_stands (m : List Byte) {s : State} (h : s.board.attach ≠ .attaching) :
    readFailsCheck m s = s := by
  unfold readFailsCheck
  split
  · rfl
  · exact failRead_stands h _
  · rfl

/-- The record length is out of range: the version decides which of the two it is. -/
theorem readImage_length {m : List Byte} (hlen : 2 ≤ m.length)
    (h : byteAt m 1 < 96 ∨ 111 < byteAt m 1) :
    readImage m = .bad (if byteAt m 0 = 1 then .badField else .badVersion) := by
  rw [readImage, if_neg (by omega), if_pos h]
  by_cases hversion : byteAt m 0 = 1
  · rw [if_neg (not_not_intro hversion), if_pos hversion]
  · rw [if_pos hversion, if_neg hversion]

/-- The last three checks, of a memory that holds the whole record. -/
theorem readImage_whole {m : List Byte} (hlo : 96 ≤ byteAt m 1) (hhi : byteAt m 1 ≤ 111)
    (hlen : byteAt m 1 + 2 ≤ m.length) :
    readImage m =
      if (crc16 (m.take (byteAt m 1))).toNat ≠ halfAt m (byteAt m 1) then .bad .badCheck
      else if byteAt m 0 ≠ 1 then .bad .badVersion
      else if fieldsInRange (parseRecord m) = false then .bad .badField
      else .good (parseRecord m) := by
  rw [readImage, if_neg (by omega), if_neg (by omega), if_neg (by omega)]

theorem twoWire_eq {s : State} (hr : s.resetting = none) :
    s.twoWire = if s.board.attach = .attaching then some ⟨0x50#7, 0⟩ else none := by
  have houtside : s.resetting.isNone = true := by rw [hr]; rfl
  rw [State.twoWire, houtside, Bool.true_and]
  simp only [beq_iff_eq]
  rfl

/-- Settles O12: an end of a read in ATTACHING empties the table; the order of the checks is `readImage`'s. -/
theorem aFailedReadEmptiesTheBoard : Obligations.AFailedReadEmptiesTheBoard := by
  intro m s hr failed
  have hnone : exec .attachNoAnswer s = .next (failRead .noAnswer s) := exec_effect .attachNoAnswer rfl hr
  have htime : exec .attachTimeout s = .next (failRead .noAnswer s) := exec_effect .attachTimeout rfl hr
  have hcheck : exec (.attachReadFailure m) s = .next (readFailsCheck m s) :=
    exec_effect (.attachReadFailure m) rfl hr
  rw [hnone, htime, hcheck, twoWire_eq hr]
  refine ⟨fun ha => ?_, fun ha => ?_, fun ha => if_pos ha, fun ha => if_neg ha, readImage_length,
    fun hlo hhi hlen => ?_⟩
  · rw [failRead_attaching ha]
    refine ⟨rfl, rfl, fun r hbad hreason => ?_⟩
    rw [readFailsCheck_bad hbad hreason, failRead_attaching ha]
    rfl
  · rw [failRead_stands ha, readFailsCheck_stands m ha]
    exact ⟨rfl, rfl, rfl⟩
  · rw [readImage_whole hlo hhi hlen]
    refine ⟨fun hcrc => if_pos hcrc, fun hcrc hversion => ?_, fun hcrc hversion => ?_⟩
    · rw [if_neg (not_not_intro hcrc), if_pos hversion]
    · rw [if_neg (not_not_intro hcrc), if_neg (not_not_intro hversion)]
      cases fieldsInRange (parseRecord m) <;> rfl

/-! ### The board's presence (R23, R24) -/

theorem removalMode_stands {s : State} (h : runningMode s.mode = false) : removalMode s = s := by
  unfold removalMode
  cases hmode : s.mode with
  | config | safe => rfl
  | run | pause | shutdown =>
    rw [hmode] at h
    cases h

theorem removalMode_running {s : State} (h : runningMode s.mode = true) :
    removalMode s = enterSafe .detach s ∧ s.mode ≠ .safe := by
  unfold removalMode
  cases hmode : s.mode with
  | run | pause | shutdown => exact ⟨rfl, Mode.noConfusion⟩
  | config | safe =>
    rw [hmode] at h
    cases h

theorem boardRemoved_seated {s : State} (h : s.board.attach ≠ .detached) :
    boardRemoved s = removalMode (emptyBoard .detached none (leaveAttached s)) := if_neg h

/-- Settles O14: by the attach state, which says what leaves with the board, and by the mode. -/
theorem boardPresenceMovesTheAttachState : Obligations.BoardPresenceMovesTheAttachState := by
  intro s hr gone
  have hseat : exec .brdPresentAsserted s = .next (boardSeated s) := exec_effect .brdPresentAsserted rfl hr
  have hremove : exec .brdPresentDeasserted s = .next (boardRemoved s) :=
    exec_effect .brdPresentDeasserted rfl hr
  rw [hseat, hremove]
  refine ⟨rfl, fun ha => congrArg _ (if_pos ha), fun hseated hmode ha => ?_, fun ha hmode => ?_,
    fun ha hmode => ?_⟩
  · rw [boardRemoved_seated hseated, leaveAttached_of_ne ha]
    exact congrArg _ (removalMode_stands hmode)
  · have hseated : s.board.attach ≠ .detached := by rw [ha]; decide
    rw [boardRemoved_seated hseated, leaveAttached_of_attached ha]
    exact congrArg _ (removalMode_stands hmode)
  · have hseated : s.board.attach ≠ .detached := by rw [ha]; decide
    refine ⟨_, rfl, ?_⟩
    rw [boardRemoved_seated hseated, leaveAttached_of_attached ha]
    obtain ⟨henter, hsafe⟩ := removalMode_running (s := emptyBoard .detached none { s with
      scan := emptied s.scan
      supply := .reset
      bulkLow := 0
      mon := tab16 fun k => { look s.mon k with level := none, alarm := none } }) hmode
    rw [henter]
    exact enterSafe_spec hsafe

end Sys2Proof.Machine
end

section
/-! SUPPORT. The proofs of chapter 02, the identity memory: a record laid out reads back. -/

namespace Sys2Proof.Machine

/-! ### Reading a list of bytes at an offset -/

/-- From offset `i` on, `m` reads like `l`. -/
def ReadsFrom (m : List Byte) (i : Nat) (l : List Byte) : Prop := ∀ j, byteAt m (i + j) = byteAt l j

theorem readsFrom_zero (m : List Byte) : ReadsFrom m 0 m := fun j => by rw [Nat.zero_add]

theorem byteAt_append (a l : List Byte) (j : Nat) : byteAt (a ++ l) (a.length + j) = byteAt l j := by
  rw [byteAt, byteAt, List.getD_append_right _ _ _ _ (Nat.le_add_right _ _), Nat.add_sub_cancel_left]

/-- Past the bytes `a` the rest is read. -/
theorem ReadsFrom.skip {m a l : List Byte} {i : Nat} (h : ReadsFrom m i (a ++ l)) {n : Nat}
    (hn : n = i + a.length) : ReadsFrom m n l := by
  intro j
  rw [hn, Nat.add_assoc, h, byteAt_append]

theorem ReadsFrom.byte {m l : List Byte} {i : Nat} (h : ReadsFrom m i l) : byteAt m i = byteAt l 0 := h 0

theorem ReadsFrom.half {m l : List Byte} {i : Nat} (h : ReadsFrom m i l) (j : Nat) :
    halfAt m (i + j) = halfAt l j := by
  rw [halfAt, halfAt, h, Nat.add_assoc, h]

/-! ### Fields read back -/

theorem byteAt_put1 {v : Nat} (h : v < 256) (l : List Byte) : byteAt (put1 v ++ l) 0 = v :=
  byteAt_ofNat [] l h

theorem halfAt_put2_first {v : Nat} (h : v < 65536) (l : List Byte) : halfAt (put2 v ++ l) 0 = v := by
  simp [halfAt, byteAt, put2]
  omega

/-- A two-byte field where it stands. -/
theorem ReadsFrom.put2 {m l : List Byte} {i v : Nat} (h : ReadsFrom m i (put2 v ++ l)) (hv : v < 65536) :
    halfAt m i = v := (h.half 0).trans (halfAt_put2_first hv l)

theorem ReadsFrom.put1 {m l : List Byte} {i v : Nat} (h : ReadsFrom m i (put1 v ++ l)) (hv : v < 256) :
    byteAt m i = v := h.byte.trans (byteAt_put1 hv l)

/-- A bit vector where it stands. -/
theorem ReadsFrom.bits {m l : List Byte} {i : Nat} {v : Half}
    (h : ReadsFrom m i (Machine.put2 v.toNat ++ l)) : BitVec.ofNat 16 (halfAt m i) = v := by
  rw [h.put2 v.isLt, BitVec.ofNat_toNat, BitVec.setWidth_eq]

theorem ReadsFrom.signedHalf {m l : List Byte} {i : Nat} {x : Int} (h : ReadsFrom m i (put2s x ++ l))
    (hlo : -32768 ≤ x) (hhi : x ≤ 32767) : signedHalfAt m i = x := by
  have hbits : ReadsFrom m i (Machine.put2 (BitVec.ofInt 16 x).toNat ++ l) := h
  rw [signedHalfAt, hbits.bits, BitVec.toInt_ofInt]
  exact Int.bmod_eq_of_le (by omega) (by omega)

theorem ReadsFrom.signedByte {m l : List Byte} {i : Nat} {x : Int}
    (h : ReadsFrom m i (BitVec.ofInt 8 x :: l)) (hlo : -128 ≤ x) (hhi : x ≤ 127) :
    signedByteAt m i = x := by
  have hbyte : byteAt m i = (BitVec.ofInt 8 x).toNat := h.byte
  rw [signedByteAt, hbyte, BitVec.ofNat_toNat, BitVec.setWidth_eq, BitVec.toInt_ofInt]
  exact Int.bmod_eq_of_le (by omega) (by omega)

/-- An entry of a table whose entries have one width. -/
theorem ReadsFrom.entry {α : Type} {m : List Byte} {i n w : Nat} {v : Vector α n} {f : α → List Byte}
    {l : List Byte} (h : ReadsFrom m i (v.toList.flatMap f ++ l)) (hw : ∀ a, (f a).length = w) (k : Fin n) :
    ∃ l', ReadsFrom m (i + w * k.val) (f (look v k) ++ l') := by
  have hk : k.val < v.toList.length := by simp
  have hsplit : v.toList = v.toList.take k.val ++ look v k :: v.toList.drop (k.val + 1) := by
    conv_lhs => rw [← List.take_append_drop k.val v.toList, List.drop_eq_getElem_cons hk]
    rw [Vector.getElem_toList]
    rfl
  have hlen : ((v.toList.take k.val).flatMap f).length = w * k.val := by
    rw [List.length_flatMap, funext hw, List.map_const', List.sum_replicate_nat,
      List.length_take_of_le hk.le, Nat.mul_comm]
  rw [hsplit, List.flatMap_append, List.flatMap_cons, List.append_assoc, List.append_assoc] at h
  exact ⟨_, h.skip (by rw [hlen])⟩

/-! ### The parts of a record -/

theorem within_iff {lo hi x : Nat} : within lo hi x = true ↔ lo ≤ x ∧ x ≤ hi := by
  rw [within, Bool.and_eq_true, decide_eq_true_eq, decide_eq_true_eq]

theorem railImage_length (r : RailLimits) : (railImage r).length = 14 := rfl

/-- A rail type's seven fields. -/
theorem ReadsFrom.rail {m l : List Byte} {o : Nat} {r : RailLimits} (h : ReadsFrom m o (railImage r ++ l))
    (hr : railInRange r = true) : parseRail m o = r := by
  simp only [railInRange, Bool.and_eq_true, within_iff] at hr
  obtain ⟨⟨⟨⟨⟨⟨⟨⟨⟨hmin, -⟩, hmax⟩, -⟩, -⟩, hfull⟩, htrip⟩, hpower⟩, hrise⟩, hfall⟩ := hr
  simp only [railImage, List.append_assoc] at h
  have h1 := h.skip (n := o + 2) rfl
  have h2 := h1.skip (n := o + 4) rfl
  have h3 := h2.skip (n := o + 6) rfl
  have h4 := h3.skip (n := o + 8) rfl
  have h5 := h4.skip (n := o + 10) rfl
  have h6 := h5.skip (n := o + 12) rfl
  rw [parseRail, h.put2 (by omega), h1.put2 (by omega), h2.put2 (by omega), h3.put2 (by omega),
    h4.put2 (by omega), h5.put2 (by omega), h6.put2 (by omega)]

/-- The bytes of a record from its population on. -/
def bodyImage (x : BoardRecord) : List Byte :=
  put2 x.population.toNat ++ (x.heaterRating.toList.flatMap put2
    ++ (x.calibration.toList.flatMap (fun c => [BitVec.ofInt 8 c])
    ++ (put2s x.absLimit ++ (railImage x.rail.core ++ (railImage x.rail.aux
    ++ (put2 x.vectorPeriod ++ (put2 x.latency ++ (put1 x.glitchWidth ++ (put2 x.alarmHigh.toNat
    ++ (put2 x.bulkLimit ++ put2 x.bulkMinimum))))))))))

theorem recordImage_body (x : BoardRecord) :
    recordImage x = put1 x.layoutVersion ++ (put1 (95 + x.serial.length) ++ (put2 x.typeCode.toNat
      ++ (x.serial ++ bodyImage x))) := by
  simp only [recordImage, bodyImage, List.append_assoc]

theorem table_length {α : Type} {n w : Nat} (v : Vector α n) {f : α → List Byte}
    (hw : ∀ a, (f a).length = w) : (v.toList.flatMap f).length = n * w := by
  rw [List.length_flatMap, funext hw, List.map_const', List.sum_replicate_nat, Vector.length_toList]

theorem bodyImage_length (x : BoardRecord) : (bodyImage x).length = 91 := by
  have hheater := table_length x.heaterRating put2_length
  have hcalibration := table_length x.calibration (f := fun c => [BitVec.ofInt 8 c]) fun _ => rfl
  simp only [bodyImage, List.length_append, put1_length, put2_length, put2s_length, railImage_length,
    hheater, hcalibration]

theorem recordImage_length (x : BoardRecord) : (recordImage x).length = 95 + x.serial.length := by
  simp only [recordImage_body, List.length_append, put1_length, put2_length, bodyImage_length]
  omega

/-- The first four bytes, the serial, and the body after it, in the memory of a record. -/
theorem imageOf_parts (x : BoardRecord) :
    imageOf x = put1 x.layoutVersion ++ (put1 (95 + x.serial.length) ++ (put2 x.typeCode.toNat
      ++ (x.serial ++ (bodyImage x ++ put2 (crc16 (recordImage x)).toNat)))) := by
  rw [imageOf, recordImage_body]
  simp only [List.append_assoc]

theorem imageOf_length (x : BoardRecord) : byteAt (imageOf x) 1 = (95 + x.serial.length) % 256 := by
  rw [imageOf_parts]
  exact BitVec.toNat_ofNat _ _

/-- The fields after the serial, at their offsets from its end. -/
theorem body_fields {m l : List Byte} {b : Nat} {x : BoardRecord} (h : ReadsFrom m b (bodyImage x ++ l))
    (hrange : fieldsInRange x = true)
    (hsigned : ∀ k, -128 ≤ look x.calibration k ∧ look x.calibration k ≤ 127) :
    BitVec.ofNat 16 (halfAt m b) = x.population
      ∧ (tab16 fun k => halfAt m (b + 2 + 2 * k.val)) = x.heaterRating
      ∧ (tab16 fun k => signedByteAt m (b + 34 + k.val)) = x.calibration
      ∧ signedHalfAt m (b + 50) = x.absLimit
      ∧ parseRail m (b + 52) = x.rail.core ∧ parseRail m (b + 66) = x.rail.aux
      ∧ halfAt m (b + 80) = x.vectorPeriod ∧ halfAt m (b + 82) = x.latency
      ∧ byteAt m (b + 84) = x.glitchWidth ∧ BitVec.ofNat 16 (halfAt m (b + 85)) = x.alarmHigh
      ∧ halfAt m (b + 87) = x.bulkLimit ∧ halfAt m (b + 89) = x.bulkMinimum := by
  simp only [fieldsInRange, Bool.and_eq_true, within_iff, decide_eq_true_eq, List.all_eq_true,
    mem_allSockets, true_implies] at hrange
  obtain ⟨⟨⟨⟨⟨⟨⟨⟨⟨⟨-, hrating⟩, habsLow⟩, habsHigh⟩, hcore⟩, haux⟩, hperiod⟩, hlatency⟩, hglitch⟩, hbulk⟩,
    hminimum⟩ := hrange
  simp only [bodyImage, List.append_assoc] at h
  have hheater := h.skip (n := b + 2) rfl
  have hcalibration := hheater.skip (n := b + 34) (by rw [table_length _ put2_length])
  have habs := hcalibration.skip (n := b + 50) (by rw [table_length (w := 1) _ fun _ => rfl])
  have hrailCore := habs.skip (n := b + 52) rfl
  have hrailAux := hrailCore.skip (n := b + 66) rfl
  have hvector := hrailAux.skip (n := b + 80) rfl
  have hlate := hvector.skip (n := b + 82) rfl
  have hwidth := hlate.skip (n := b + 84) rfl
  have halarm := hwidth.skip (n := b + 85) rfl
  have hlimit := halarm.skip (n := b + 87) rfl
  have hlowest := hlimit.skip (n := b + 89) rfl
  refine ⟨h.bits, table_ext fun k => ?_, table_ext fun k => ?_, habs.signedHalf (by omega) (by omega),
    hrailCore.rail hcore, hrailAux.rail haux, hvector.put2 (by omega), hlate.put2 (by omega),
    hwidth.put1 (by omega), halarm.bits, hlimit.put2 (by omega), hlowest.put2 (by omega)⟩
  · obtain ⟨l', hentry⟩ := hheater.entry put2_length k
    have hle := (hrating k).2
    rw [look_tab16, hentry.put2 (by omega)]
  · obtain ⟨l', hentry⟩ := hcalibration.entry (w := 1) (fun _ => rfl) k
    rw [Nat.one_mul] at hentry
    rw [look_tab16, hentry.signedByte (hsigned k).1 (hsigned k).2]

/-- The fields of a sound record are those its memory reads. -/
theorem parseRecord_imageOf {x : BoardRecord} (hversion : x.layoutVersion = 1)
    (hhi : x.serial.length ≤ 16) (hrange : fieldsInRange x = true)
    (hsigned : ∀ k, -128 ≤ look x.calibration k ∧ look x.calibration k ≤ 127) :
    parseRecord (imageOf x) = x := by
  have hlength : byteAt (imageOf x) 1 - 95 = x.serial.length := by
    rw [imageOf_length]
    omega
  have himage := imageOf_parts x
  have hfirst := readsFrom_zero (imageOf x)
  conv at hfirst => arg 3; rw [himage]
  have hkind := (hfirst.skip (n := 1) rfl).skip (n := 2) rfl
  have hserial : ((imageOf x).drop 4).take x.serial.length = x.serial := by
    rw [himage]
    exact List.take_left
  obtain ⟨hpopulation, hheater, hcalibration, habs, hcore, haux, hvector, hlatency, hwidth, halarm, hlimit,
    hminimum⟩ := body_fields ((hkind.skip (n := 4) rfl).skip (n := 4 + x.serial.length) rfl) hrange hsigned
  have hrail : (⟨x.rail.core, x.rail.aux⟩ : PerRail RailLimits) = x.rail := rfl
  rw [parseRecord]
  rw [hlength, hfirst.put1 (by omega), hkind.bits, hserial, hpopulation, hheater, hcalibration, habs, hcore,
    haux, hvector, hlatency, hwidth, halarm, hlimit, hminimum, hrail]

/-- Settles O13: the length and the CRC are the record's own, and every field reads back at its offset. -/
theorem aBoardRecordReadsBack : Obligations.ABoardRecordReadsBack := by
  intro x hversion hlo hhi hrange hsigned
  have hlength : byteAt (imageOf x) 1 = 95 + x.serial.length := by
    rw [imageOf_length]
    omega
  have hlayout : byteAt (imageOf x) 0 = 1 := by
    rw [imageOf_parts, hversion, byteAt_put1 (by decide)]
  have hwhole : (imageOf x).length = byteAt (imageOf x) 1 + 2 := by
    rw [hlength, imageOf, List.length_append, recordImage_length]
    rfl
  have hcrc := image_crc x (byteAt (imageOf x) 1) (by rw [recordImage_length, hlength])
  rw [readImage_whole (by omega) (by omega) hwhole.ge, if_neg (not_not_intro hcrc),
    if_neg (not_not_intro hlayout), parseRecord_imageOf hversion hhi hrange hsigned, hrange]
  rfl

end Sys2Proof.Machine
end

section
/-! SUPPORT. The proofs of chapter 02, SetBoardField: host-set fields and overrides. -/

namespace Sys2Proof.Machine

/-! ### The checks of SetBoardField (R30, R31) -/

section
variable {code index : Byte} {v : Word} {s : State}

theorem setBoardField_wrongMode (hmode : s.mode ≠ .config) :
    setBoardField code index v s = s.refuse .wrongMode := if_pos hmode

theorem setBoardField_busy (hmode : s.mode = .config) (ha : s.board.attach = .attaching) :
    setBoardField code index v s = s.refuse .busy :=
  (if_neg (not_not_intro hmode)).trans (if_pos ha)

theorem setBoardField_unknown (hmode : s.mode = .config) (ha : s.board.attach ≠ .attaching)
    (hf : fieldOf code index = none) : setBoardField code index v s = s.refuse .range := by
  rw [setBoardField, if_neg (not_not_intro hmode), if_neg ha, hf]

theorem setBoardField_known {f : Field} (hmode : s.mode = .config) (ha : s.board.attach ≠ .attaching)
    (hf : fieldOf code index = some f) :
    setBoardField code index v s = setField code index f v.toInt s := by
  rw [setBoardField, if_neg (not_not_intro hmode), if_neg ha, hf]

end

theorem setField_readOnly {f : Field} (hhost : hostRange f = none) (hover : overrideFloor f = none)
    (code index : Byte) (v : Int) (s : State) : setField code index f v s = s.refuse .range := by
  rw [setField, hhost, hover]

theorem setField_host {f : Field} {lo hi : Int} (hf : hostRange f = some (lo, hi)) (code index : Byte)
    (v : Int) (s : State) :
    setField code index f v s = if v < lo ∨ hi < v then s.refuse .range else
      fieldReply code index f
        { s with board := { s.board with host := writeHost s.board.host v f } } := by
  rw [setField, hf]

theorem setField_override {f : Field} {floor : Int} (hhost : hostRange f = none)
    (hf : overrideFloor f = some floor) (code index : Byte) (v : Int) (s : State) :
    setField code index f v s = if s.board.attach ≠ .attached then s.refuse .notAttached
      else if v < floor then s.refuse .range
      else fieldReply code index f (installOverride f v s) := by
  rw [setField, hhost, hf]

/-- The codes from the timer intervals on name no field that SetBoardField writes. -/
theorem fieldOf_readOnly {code index : Byte} {f : Field} (hcode : 0x1A ≤ code.toNat)
    (hf : fieldOf code index = some f) : hostRange f = none ∧ overrideFloor f = none := by
  unfold fieldOf at hf
  split at hf
  all_goals first
    | omega
    | (obtain ⟨a, -, rfl⟩ := Option.map_eq_some_iff.mp hf; exact ⟨rfl, rfl⟩)
    | (cases hf; done)
    | (cases hf; exact ⟨rfl, rfl⟩)

/-! ### Host-set fields (R30) -/

/-- A row of R30 and the model's field for it: what SetBoardField writes and reads there, and that it writes
nothing else. -/
def IsHostField (g : HostField) (f : Field) : Prop :=
  (∀ index, fieldOf g.code index = some f) ∧ hostRange f = some (g.low, g.high)
    ∧ ∀ (h : HostFields) (v : Int), g.low ≤ v →
      hostValue (writeHost h v f) f = some v ∧ g.read (writeHost h v f) = v
      ∧ (∀ g' ∈ hostFields, g'.code ≠ g.code → g'.read (writeHost h v f) = g'.read h)
      ∧ (writeHost h v f).weights = h.weights ∧ (writeHost h v f).interval0 = h.interval0
      ∧ (writeHost h v f).interval1 = h.interval1

theorem hostField_exists {g : HostField} (hg : g ∈ hostFields) : ∃ f, IsHostField g f := by
  simp only [hostFields, List.mem_cons, List.not_mem_nil, or_false] at hg
  have hcast {v lo : Int} (h0 : 0 ≤ lo) (h : lo ≤ v) : (v.toNat : Int) = v := Int.toNat_of_nonneg (h0.trans h)
  rcases hg with rfl | rfl | rfl | rfl | rfl | rfl | rfl | rfl | rfl
  · refine ⟨.inrushLimit, fun _ => rfl, rfl, fun h v hv => ?_⟩
    simp [hostValue, writeHost, hcast (by decide) hv, hostFields]
  · refine ⟨.runawayGuard, fun _ => rfl, rfl, fun h v hv => ?_⟩
    simp [hostValue, writeHost, hcast (by decide) hv, hostFields]
  · refine ⟨.runawayDwell, fun _ => rfl, rfl, fun h v hv => ?_⟩
    simp [hostValue, writeHost, hcast (by decide) hv, hostFields]
  · refine ⟨.stressBand, fun _ => rfl, rfl, fun h v hv => ?_⟩
    simp [hostValue, writeHost, hcast (by decide) hv, hostFields]
  · refine ⟨.refTemp, fun _ => rfl, rfl, fun h v hv => ?_⟩
    simp [hostValue, writeHost, hostFields]
  · refine ⟨.weightStep, fun _ => rfl, rfl, fun h v hv => ?_⟩
    simp [hostValue, writeHost, hcast (by decide) hv, hostFields]
  · refine ⟨.activityAge, fun _ => rfl, rfl, fun h v hv => ?_⟩
    simp [hostValue, writeHost, hcast (by decide) hv, hostFields]
  · refine ⟨.holdTime, fun _ => rfl, rfl, fun h v hv => ?_⟩
    simp [hostValue, writeHost, hcast (by decide) hv, hostFields]
  · refine ⟨.retryLimit, fun _ => rfl, rfl, fun h v hv => ?_⟩
    simp [hostValue, writeHost, hcast (by decide) hv, hostFields]

/-- The reply gives a host-set field's own value. -/
theorem fieldReply_host {f : Field} {v : Int} {s : State} (h : hostValue s.board.host f = some v)
    (code index : Byte) :
    fieldReply code index f s = { s with answer := some ⟨.ok, [code, index] ++ put4s v⟩ } := by
  rw [fieldReply, inForce, h]
  rfl

/-- Settles O15: the checks in their order; a row of R30 is written alone and read back in the reply. -/
theorem hostFieldsAreWrittenInRange : Obligations.HostFieldsAreWrittenInRange := by
  intro code index v s hr
  have hexec : exec (.setBoardField code index v) s = .next (setBoardField code index v s) :=
    exec_effect (.setBoardField code index v) rfl hr
  simp only [Refuses, hexec]
  refine ⟨fun hmode => ?_, fun hmode ha => ?_, fun hmode ha => ⟨fun hunknown => ?_, fun g hg hcode => ?_,
    fun hcode i hi => ?_⟩⟩
  · exact congrArg _ (setBoardField_wrongMode hmode)
  · exact congrArg _ (setBoardField_busy hmode ha)
  · refine congrArg _ ?_
    cases hf : fieldOf code index with
    | none => exact setBoardField_unknown hmode ha hf
    | some f =>
      have hhigh : 0x1A ≤ code.toNat := hunknown.resolve_left (by rw [hf]; exact Option.some_ne_none f)
      obtain ⟨hhost, hover⟩ := fieldOf_readOnly hhigh hf
      rw [setBoardField_known hmode ha hf]
      exact setField_readOnly hhost hover _ _ _ _
  · obtain ⟨f, hfield, hrange, hwrite⟩ := hostField_exists hg
    have hf : fieldOf code index = some f := hcode ▸ hfield index
    rw [setBoardField_known hmode ha hf, setField_host hrange]
    refine ⟨fun hout => congrArg _ (if_pos hout), fun hlow hhigh => ?_⟩
    obtain ⟨hvalue, hread, hothers, hweights, hzero, hone⟩ := hwrite s.board.host v.toInt hlow
    refine ⟨writeHost s.board.host v.toInt f, ?_, hread, fun g' hg' hne => hothers g' hg' (hcode ▸ hne),
      hweights, hzero, hone⟩
    rw [if_neg (by omega), fieldReply_host hvalue]
  · subst hcode
    have hf : fieldOf 0x16#8 index = some (.weight i) := by
      show (weightOf index).map Field.weight = _
      rw [hi]
      rfl
    rw [setBoardField_known hmode ha hf, setField_host rfl]
    refine ⟨fun hout => congrArg _ (if_pos hout), fun hlow hhigh => ?_⟩
    have hvalue : hostValue (writeHost s.board.host v.toInt (.weight i)) (.weight i) = some v.toInt := by
      simp [hostValue, writeHost, Int.toNat_of_nonneg hlow]
    rw [if_neg (by omega), fieldReply_host hvalue]
    rfl

/-! ### Overrides (R31, R32) -/

theorem lowerOf_min (a b : Nat) : lowerOf a b = min a b := by
  unfold lowerOf
  split <;> omega

/-- The range in force of a rail type has narrowed (R32). -/
def Narrowed (r : RailKind) (before after : State) : Prop :=
  before.spMin r < after.spMin r ∨ after.spMax r < before.spMax r

theorem clampNarrowed_stands {r : RailKind} {before after : State} (h : ¬Narrowed r before after) :
    clampNarrowed r before after = after := if_neg h

theorem clampNarrowed_clamps {r : RailKind} {before after : State} (h : Narrowed r before after) :
    clampNarrowed r before after = clampSetpoints r after := if_pos h

/-- Clamping setpoints changes no range. -/
theorem narrowed_clampNarrowed (r q : RailKind) (before after : State) :
    Narrowed q before (clampNarrowed r before after) ↔ Narrowed q before after := by
  unfold clampNarrowed
  split <;> exact Iff.rfl

/-- The board with an override written, setpoints apart. -/
def overridden (f : Field) (v : Int) (s : State) : State :=
  { s with board := { s.board with overrides := writeOverride s v f } }

/-- An override that narrows the range of one rail type at most clamps the setpoints of that type. -/
theorem installOverride_narrow {f : Field} {v : Int} {s : State} (r : RailKind)
    (h : ∀ q, q ≠ r → ¬Narrowed q s (overridden f v s)) :
    installOverride f v s = clampNarrowed r s (overridden f v s) := by
  show clampNarrowed .aux s (clampNarrowed .core s (overridden f v s)) = _
  cases r with
  | core =>
    refine clampNarrowed_stands fun hn => h .aux RailKind.noConfusion ?_
    exact (narrowed_clampNarrowed .core .aux s _).mp hn
  | aux => rw [clampNarrowed_stands (h .core RailKind.noConfusion)]

/-- An override that leaves the setpoint ranges is written and nothing more. -/
theorem installOverride_stands {f : Field} {v : Int} {s : State}
    (h : ∀ q, ¬Narrowed q s (overridden f v s)) : installOverride f v s = overridden f v s := by
  rw [installOverride_narrow .core fun q _ => h q, clampNarrowed_stands (h .core)]

theorem not_narrowed_of_eq {q : RailKind} {s t : State} (hmin : t.spMin q = s.spMin q)
    (hmax : t.spMax q = s.spMax q) : ¬Narrowed q s t := by
  unfold Narrowed
  omega

/-- The value in force of an overridden field is the override. -/
theorem fieldReply_override {f : Field} {v : Int} {x : BoardRecord} {s : State}
    (hhost : hostValue s.board.host f = none) (hfields : s.board.fields = some x)
    (h : overrideValue s.board.overrides f = some v) (code index : Byte) :
    fieldReply code index f s = { s with answer := some ⟨.ok, [code, index] ++ put4s v⟩ } := by
  rw [fieldReply, inForce, hhost, hfields, h]
  rfl

theorem perRail_set_get {α : Type} (p : PerRail α) (r : RailKind) : p.set r (p.get r) = p := by
  cases r <;> rfl

/-- What the clamping after a change of range does to a socket's parameters. -/
theorem clampNarrowed_sock (r : RailKind) (s t : State) (hsame : t.sockets = s.sockets) (k : Socket) :
    (clampNarrowed r s t).sock k = { s.sock k with params := { (s.sock k).params with
      setpoint := (s.sock k).params.setpoint.set r
        (if s.spMin r < t.spMin r ∨ t.spMax r < s.spMax r
          then clampNat (t.spMin r) (t.spMax r) ((s.sock k).params.setpoint.get r)
          else (s.sock k).params.setpoint.get r) } } := by
  have hsock : t.sock k = s.sock k := by rw [State.sock, State.sock, hsame]
  by_cases h : s.spMin r < t.spMin r ∨ t.spMax r < s.spMax r
  · rw [clampNarrowed_clamps h, if_pos h, ← hsock]
    exact look_tab16 _ k
  · rw [clampNarrowed_stands h, if_neg h, perRail_set_get, hsock]

theorem clampNarrowed_frame (r : RailKind) (s t : State) :
    clampNarrowed r s t = { t with sockets := (clampNarrowed r s t).sockets } := by
  unfold clampNarrowed
  split <;> rfl

theorem brd_of_fields {s : State} {x : BoardRecord} (h : s.board.fields = some x) : s.brd = x := by
  rw [State.brd, h]
  rfl

/-- SetBoardField on an overridable field of an ATTACHED board. -/
theorem setField_attached {f : Field} {floor : Int} {s : State} (hhost : hostRange f = none)
    (hf : overrideFloor f = some floor) (ha : s.board.attach = .attached) (code index : Byte) (v : Int) :
    setField code index f v s = if v < floor then s.refuse .range
      else fieldReply code index f (installOverride f v s) := by
  rw [setField_override hhost hf, if_neg (not_not_intro ha)]

/-- The codes 1 to 8 name the overridable fields. -/
theorem fieldOf_overridable {code : Byte} (hlo : 1 ≤ code.toNat) (hhi : code.toNat ≤ 8) (index : Byte) :
    ∃ f floor, fieldOf code index = some f ∧ hostRange f = none ∧ overrideFloor f = some floor := by
  have hcases : code.toNat = 1 ∨ code.toNat = 2 ∨ code.toNat = 3 ∨ code.toNat = 4 ∨ code.toNat = 5
      ∨ code.toNat = 6 ∨ code.toNat = 7 ∨ code.toNat = 8 := by omega
  unfold fieldOf
  rcases hcases with h | h | h | h | h | h | h | h
  all_goals
    rw [h]
    exact ⟨_, _, rfl, rfl, rfl⟩

/-- The board with a trip current overridden. -/
def tripOverridden (r : RailKind) (m : Nat) (s : State) : State :=
  { s with board := { s.board with overrides :=
    { s.board.overrides with trip := s.board.overrides.trip.set r (some m) } } }

/-- The board with the absolute limit overridden. -/
def limitOverridden (m : Int) (s : State) : State :=
  { s with board := { s.board with overrides := { s.board.overrides with absLimit := some m } } }

/-- The board with the bulk power limit overridden. -/
def bulkOverridden (m : Nat) (s : State) : State :=
  { s with board := { s.board with overrides := { s.board.overrides with bulkLimit := some m } } }

/-- The board with the setpoint maximum of a rail type overridden. -/
def maxOverridden (r : RailKind) (m : Nat) (s : State) : State :=
  { s with board := { s.board with overrides :=
    { s.board.overrides with spMax := s.board.overrides.spMax.set r (some m) } } }

/-- The board with the setpoint minimum of a rail type overridden. -/
def minOverridden (r : RailKind) (m : Nat) (s : State) : State :=
  { s with board := { s.board with overrides :=
    { s.board.overrides with spMin := s.board.overrides.spMin.set r (some m) } } }

theorem tripOverridden_value (r : RailKind) (m : Nat) (s : State) :
    (tripOverridden r m s).trip r = m
      ∧ overrideValue (tripOverridden r m s).board.overrides (.trip r) = some (m : Int) := by
  have h : (tripOverridden r m s).board.overrides.trip.get r = some m := get_set_same _ _ _
  rw [State.trip, overrideValue, h]
  exact ⟨rfl, rfl⟩

theorem maxOverridden_value (r : RailKind) (m : Nat) (s : State) :
    (maxOverridden r m s).spMax r = m
      ∧ overrideValue (maxOverridden r m s).board.overrides (.spMax r) = some (m : Int) := by
  have h : (maxOverridden r m s).board.overrides.spMax.get r = some m := get_set_same _ _ _
  rw [State.spMax, overrideValue, h]
  exact ⟨rfl, rfl⟩

theorem minOverridden_value (r : RailKind) (m : Nat) (s : State) :
    (minOverridden r m s).spMin r = m
      ∧ overrideValue (minOverridden r m s).board.overrides (.spMin r) = some (m : Int) := by
  have h : (minOverridden r m s).board.overrides.spMin.get r = some m := get_set_same _ _ _
  rw [State.spMin, overrideValue, h]
  exact ⟨rfl, rfl⟩

/-- The other rail type keeps its range. -/
theorem maxOverridden_other {r q : RailKind} (h : q ≠ r) (m : Nat) (s : State) :
    (maxOverridden r m s).spMax q = s.spMax q := by
  unfold State.spMax maxOverridden
  dsimp only
  rw [get_set, if_neg h]
  rfl

theorem minOverridden_other {r q : RailKind} (h : q ≠ r) (m : Nat) (s : State) :
    (minOverridden r m s).spMin q = s.spMin q := by
  unfold State.spMin minOverridden
  dsimp only
  rw [get_set, if_neg h]
  rfl

/-- What each overridable field installs (R31): the tighter of the value and the board's. -/
theorem installOverride_trip (r : RailKind) {v : Int} {s : State} {x : BoardRecord}
    (hx : s.board.fields = some x) :
    installOverride (.trip r) v s = tripOverridden r (min v.toNat (x.rail.get r).trip) s := by
  rw [installOverride_stands fun q => not_narrowed_of_eq rfl rfl, overridden, writeOverride, lowerOf_min,
    brd_of_fields hx]
  rfl

theorem installOverride_absLimit {v : Int} {s : State} {x : BoardRecord} (hx : s.board.fields = some x) :
    installOverride .absLimit v s = limitOverridden (min v x.absLimit) s := by
  have hmin : (if v ≤ x.absLimit then v else x.absLimit) = min v x.absLimit := by split <;> omega
  rw [installOverride_stands fun q => not_narrowed_of_eq rfl rfl, overridden, writeOverride,
    brd_of_fields hx, hmin]
  rfl

theorem installOverride_bulkLimit {v : Int} {s : State} {x : BoardRecord} (hx : s.board.fields = some x) :
    installOverride .bulkLimit v s = bulkOverridden (min v.toNat x.bulkLimit) s := by
  rw [installOverride_stands fun q => not_narrowed_of_eq rfl rfl, overridden, writeOverride, lowerOf_min,
    brd_of_fields hx]
  rfl

theorem installOverride_spMax (r : RailKind) {v : Int} {s : State} {x : BoardRecord}
    (hx : s.board.fields = some x) :
    installOverride (.spMax r) v s = clampNarrowed r s (maxOverridden r
      (max (s.spMin r) (min (v.toNat / 5 * 5) (x.rail.get r).spMax)) s) := by
  have hwritten : overridden (.spMax r) v s = maxOverridden r
      (max (s.spMin r) (min (v.toNat / 5 * 5) (x.rail.get r).spMax)) s := by
    rw [overridden, writeOverride, adjustMax, higherOf_max, lowerOf_min, brd_of_fields hx]
    rfl
  rw [installOverride_narrow r fun q hq => ?_, hwritten]
  rw [hwritten]
  exact not_narrowed_of_eq rfl (maxOverridden_other hq _ s)

theorem installOverride_spMin (r : RailKind) {v : Int} {s : State} {x : BoardRecord}
    (hx : s.board.fields = some x) :
    installOverride (.spMin r) v s = clampNarrowed r s (minOverridden r
      (min (s.spMax r) (max (v.toNat / 5 * 5) (x.rail.get r).spMin)) s) := by
  have hwritten : overridden (.spMin r) v s = minOverridden r
      (min (s.spMax r) (max (v.toNat / 5 * 5) (x.rail.get r).spMin)) s := by
    rw [overridden, writeOverride, adjustMin, higherOf_max, lowerOf_min, brd_of_fields hx]
    rfl
  rw [installOverride_narrow r fun q hq => ?_, hwritten]
  rw [hwritten]
  exact not_narrowed_of_eq (minOverridden_other hq _ s) rfl

/-- `t` comes of an accepted SetBoardField that left `u` and told the value `v`. -/
def Told (code index : Byte) (v : Int) (u : State) : State :=
  { u with answer := some ⟨.ok, [code, index] ++ put4s v⟩ }

section
variable {code index : Byte} {v : Word} {s : State} {x : BoardRecord}

/-- A SetBoardField of an overridable field: refused below the floor, or installed and replied. -/
theorem exec_override {f : Field} {floor : Int} (hr : s.resetting = none) (hmode : s.mode = .config)
    (ha : s.board.attach = .attached) (hf : fieldOf code index = some f) (hhost : hostRange f = none)
    (hfloor : overrideFloor f = some floor) :
    (v.toInt < floor → Refuses (.setBoardField code index v) s .range)
    ∧ (floor ≤ v.toInt → exec (.setBoardField code index v) s
        = .next (fieldReply code index f (installOverride f v.toInt s))) := by
  have hexec : exec (.setBoardField code index v) s = .next (if v.toInt < floor then s.refuse .range
      else fieldReply code index f (installOverride f v.toInt s)) := by
    have hbusy : s.board.attach ≠ .attaching := by rw [ha]; decide
    rw [exec_effect (.setBoardField code index v) rfl hr]
    exact congrArg _ ((setBoardField_known hmode hbusy hf).trans
      (setField_attached hhost hfloor ha code index v.toInt))
  rw [Refuses, hexec]
  exact ⟨fun h => congrArg _ (if_pos h), fun h => congrArg _ (if_neg (Int.not_lt.mpr h))⟩

theorem override_trip (hr : s.resetting = none) (hmode : s.mode = .config)
    (ha : s.board.attach = .attached) (hx : s.board.fields = some x) (r : RailKind)
    (hf : fieldOf code index = some (.trip r)) :
    (v.toInt < 1 → Refuses (.setBoardField code index v) s .range)
    ∧ (1 ≤ v.toInt → ∃ t, exec (.setBoardField code index v) s = .next t
      ∧ t.trip r = min v.toInt.toNat (x.rail.get r).trip
      ∧ t.answer = some ⟨.ok, [code, index] ++ put4s (t.trip r)⟩
      ∧ t = { s with answer := t.answer, board := { s.board with overrides :=
          { s.board.overrides with
            trip := s.board.overrides.trip.set r (some (t.trip r)) } } }) := by
  obtain ⟨hlow, hexec⟩ := exec_override (v := v) hr hmode ha hf rfl rfl
  refine ⟨hlow, fun h => ?_⟩
  generalize hm : min v.toInt.toNat (x.rail.get r).trip = m
  obtain ⟨hvalue, htold⟩ := tripOverridden_value r m s
  have ht : exec (.setBoardField code index v) s = .next (Told code index m (tripOverridden r m s)) := by
    rw [hexec h, installOverride_trip r hx, hm,
      fieldReply_override (s := tripOverridden r m s) rfl hx htold]
    rfl
  have hkept : (Told code index m (tripOverridden r m s)).trip r = m := hvalue
  refine ⟨_, ht, hkept, ?_, ?_⟩ <;> rw [hkept] <;> rfl

theorem override_absLimit (hr : s.resetting = none) (hmode : s.mode = .config)
    (ha : s.board.attach = .attached) (hx : s.board.fields = some x)
    (hf : fieldOf code index = some .absLimit) :
    (v.toInt < 800 → Refuses (.setBoardField code index v) s .range)
    ∧ (800 ≤ v.toInt → ∃ t, exec (.setBoardField code index v) s = .next t
      ∧ t.absLimit = min v.toInt x.absLimit
      ∧ t.answer = some ⟨.ok, [code, index] ++ put4s t.absLimit⟩
      ∧ t = { s with answer := t.answer, board := { s.board with overrides :=
          { s.board.overrides with absLimit := some t.absLimit } } }) := by
  obtain ⟨hlow, hexec⟩ := exec_override (v := v) hr hmode ha hf rfl rfl
  refine ⟨hlow, fun h => ?_⟩
  generalize hm : min v.toInt x.absLimit = m
  have ht : exec (.setBoardField code index v) s = .next (Told code index m (limitOverridden m s)) := by
    rw [hexec h, installOverride_absLimit hx, hm,
      fieldReply_override (v := m) (s := limitOverridden m s) rfl hx rfl]
    rfl
  exact ⟨_, ht, rfl, rfl, rfl⟩

theorem override_bulkLimit (hr : s.resetting = none) (hmode : s.mode = .config)
    (ha : s.board.attach = .attached) (hx : s.board.fields = some x)
    (hf : fieldOf code index = some .bulkLimit) :
    (v.toInt < 1 → Refuses (.setBoardField code index v) s .range)
    ∧ (1 ≤ v.toInt → ∃ t, exec (.setBoardField code index v) s = .next t
      ∧ t.bulkLimit = min v.toInt.toNat x.bulkLimit
      ∧ t.answer = some ⟨.ok, [code, index] ++ put4s t.bulkLimit⟩
      ∧ t = { s with answer := t.answer, board := { s.board with overrides :=
          { s.board.overrides with bulkLimit := some t.bulkLimit } } }) := by
  obtain ⟨hlow, hexec⟩ := exec_override (v := v) hr hmode ha hf rfl rfl
  refine ⟨hlow, fun h => ?_⟩
  generalize hm : min v.toInt.toNat x.bulkLimit = m
  have ht : exec (.setBoardField code index v) s = .next (Told code index m (bulkOverridden m s)) := by
    rw [hexec h, installOverride_bulkLimit hx, hm,
      fieldReply_override (v := (m : Int)) (s := bulkOverridden m s) rfl hx rfl]
    rfl
  exact ⟨_, ht, rfl, rfl, rfl⟩

/-- The ranges, the overrides and the board's fields are those that the clamping found. -/
theorem clampNarrowed_board (r : RailKind) (s t : State) : (clampNarrowed r s t).board = t.board := by
  rw [clampNarrowed_frame]

theorem clampNarrowed_spMax (r q : RailKind) (s t : State) : (clampNarrowed r s t).spMax q = t.spMax q := by
  rw [State.spMax, State.spMax, State.brd, State.brd, clampNarrowed_board]

theorem clampNarrowed_spMin (r q : RailKind) (s t : State) : (clampNarrowed r s t).spMin q = t.spMin q := by
  rw [State.spMin, State.spMin, State.brd, State.brd, clampNarrowed_board]

theorem override_spMax (hr : s.resetting = none) (hmode : s.mode = .config)
    (ha : s.board.attach = .attached) (hx : s.board.fields = some x) (r : RailKind)
    (hf : fieldOf code index = some (.spMax r)) :
    (v.toInt < 0 → Refuses (.setBoardField code index v) s .range)
    ∧ (0 ≤ v.toInt → ∃ t, exec (.setBoardField code index v) s = .next t
      ∧ t.spMax r = max (s.spMin r) (min (v.toInt.toNat / 5 * 5) (x.rail.get r).spMax)
      ∧ t.answer = some ⟨.ok, [code, index] ++ put4s (t.spMax r)⟩
      ∧ (∀ k, t.sock k = { s.sock k with params := { (s.sock k).params with
          setpoint := (s.sock k).params.setpoint.set r
            (if t.spMax r < s.spMax r then
              clampNat (s.spMin r) (t.spMax r) ((s.sock k).params.setpoint.get r)
            else (s.sock k).params.setpoint.get r) } })
      ∧ t = { s with
          answer := t.answer
          sockets := t.sockets
          board := { s.board with overrides :=
            { s.board.overrides with
              spMax := s.board.overrides.spMax.set r (some (t.spMax r)) } } }) := by
  obtain ⟨hlow, hexec⟩ := exec_override (v := v) hr hmode ha hf rfl rfl
  refine ⟨hlow, fun h => ?_⟩
  generalize hm : max (s.spMin r) (min (v.toInt.toNat / 5 * 5) (x.rail.get r).spMax) = m
  obtain ⟨hvalue, htold⟩ := maxOverridden_value r m s
  have hboard := clampNarrowed_board r s (maxOverridden r m s)
  have hfields : (clampNarrowed r s (maxOverridden r m s)).board.fields = some x := by
    rw [hboard]
    exact hx
  rw [← hboard] at htold
  have ht : exec (.setBoardField code index v) s
      = .next (Told code index m (clampNarrowed r s (maxOverridden r m s))) := by
    rw [hexec h, installOverride_spMax r hx, hm, fieldReply_override rfl hfields htold]
    rfl
  have hkept : (Told code index m (clampNarrowed r s (maxOverridden r m s))).spMax r = m :=
    (clampNarrowed_spMax r r s _).trans hvalue
  refine ⟨_, ht, hkept, ?_, fun k => ?_, ?_⟩
  · rw [hkept]
    rfl
  · have hsock := clampNarrowed_sock r s (maxOverridden r m s) rfl k
    have hmin : (maxOverridden r m s).spMin r = s.spMin r := rfl
    simp only [hmin, hvalue, Nat.lt_irrefl, false_or] at hsock
    rw [hkept]
    exact hsock
  · rw [hkept, clampNarrowed_frame]
    rfl

theorem override_spMin (hr : s.resetting = none) (hmode : s.mode = .config)
    (ha : s.board.attach = .attached) (hx : s.board.fields = some x) (r : RailKind)
    (hf : fieldOf code index = some (.spMin r)) :
    (v.toInt < 0 → Refuses (.setBoardField code index v) s .range)
    ∧ (0 ≤ v.toInt → ∃ t, exec (.setBoardField code index v) s = .next t
      ∧ t.spMin r = min (s.spMax r) (max (v.toInt.toNat / 5 * 5) (x.rail.get r).spMin)
      ∧ t.answer = some ⟨.ok, [code, index] ++ put4s (t.spMin r)⟩
      ∧ (∀ k, t.sock k = { s.sock k with params := { (s.sock k).params with
          setpoint := (s.sock k).params.setpoint.set r
            (if s.spMin r < t.spMin r then
              clampNat (t.spMin r) (s.spMax r) ((s.sock k).params.setpoint.get r)
            else (s.sock k).params.setpoint.get r) } })
      ∧ t = { s with
          answer := t.answer
          sockets := t.sockets
          board := { s.board with overrides :=
            { s.board.overrides with
              spMin := s.board.overrides.spMin.set r (some (t.spMin r)) } } }) := by
  obtain ⟨hlow, hexec⟩ := exec_override (v := v) hr hmode ha hf rfl rfl
  refine ⟨hlow, fun h => ?_⟩
  generalize hm : min (s.spMax r) (max (v.toInt.toNat / 5 * 5) (x.rail.get r).spMin) = m
  obtain ⟨hvalue, htold⟩ := minOverridden_value r m s
  have hboard := clampNarrowed_board r s (minOverridden r m s)
  have hfields : (clampNarrowed r s (minOverridden r m s)).board.fields = some x := by
    rw [hboard]
    exact hx
  rw [← hboard] at htold
  have ht : exec (.setBoardField code index v) s
      = .next (Told code index m (clampNarrowed r s (minOverridden r m s))) := by
    rw [hexec h, installOverride_spMin r hx, hm, fieldReply_override rfl hfields htold]
    rfl
  have hkept : (Told code index m (clampNarrowed r s (minOverridden r m s))).spMin r = m :=
    (clampNarrowed_spMin r r s _).trans hvalue
  refine ⟨_, ht, hkept, ?_, fun k => ?_, ?_⟩
  · rw [hkept]
    rfl
  · have hsock := clampNarrowed_sock r s (minOverridden r m s) rfl k
    have hmax : (minOverridden r m s).spMax r = s.spMax r := rfl
    simp only [hmax, hvalue, Nat.lt_irrefl, or_false] at hsock
    rw [hkept]
    exact hsock
  · rw [hkept, clampNarrowed_frame]
    rfl

end

/-- Settles O16: outside ATTACHED the eight codes are refused; in ATTACHED each field by its own rule. -/
theorem overridesTighten : Obligations.OverridesTighten := by
  intro index v s hr hmode setTo
  refine ⟨fun hout hbusy code hlo hhi => ?_, fun x ha hx => ?_⟩
  · obtain ⟨f, floor, hf, hhost, hfloor⟩ := fieldOf_overridable hlo hhi index
    have hexec : exec (.setBoardField code index v) s = .next (setBoardField code index v s) :=
      exec_effect (.setBoardField code index v) rfl hr
    rw [Refuses, hexec, setBoardField_known hmode hbusy hf, setField_override hhost hfloor, if_pos hout]
    rfl
  · have hlimit := override_absLimit (v := v) (index := index) (code := 7#8) hr hmode ha hx rfl
    have hbulk := override_bulkLimit (v := v) (index := index) (code := 8#8) hr hmode ha hx rfl
    refine ⟨fun r => override_trip hr hmode ha hx r ?_, hlimit.1, hlimit.2, hbulk.1, hbulk.2,
      fun r => override_spMax hr hmode ha hx r ?_, fun r => override_spMin hr hmode ha hx r ?_⟩
    all_goals cases r <;> rfl

end Sys2Proof.Machine
end

section
/-! SUPPORT. The proofs of chapter 04, rail sequencing: valid profiles, grants, and timed rail events. -/

namespace Sys2Proof.Machine

/-! ### Valid profiles (R50) -/

/-- Whether a rail is up after steps, from whether it is up before. -/
def upAfter (r : RailKind) (up : Bool) (steps : List Step) : Bool :=
  steps.foldl (fun up x => if x = .raise r then true else if x = .drop r then false else up) up

/-- The walk ends with the rails that the steps leave up, where every VERIFY finds its rail up. -/
theorem walk_eq (steps : List Step) (core aux : Bool) :
    walk core aux steps = if verifiesUp core aux steps = true then
      some (upAfter .core core steps, upAfter .aux aux steps) else none := by
  induction steps generalizing core aux with
  | nil => rfl
  | cons x rest ih =>
    cases x with
    | raise r => cases r <;> exact ih _ _
    | drop r => cases r <;> exact ih _ _
    | dwell ms => exact ih _ _
    | verify r lo hi =>
      cases r with
      | core => cases core <;> first | rfl | exact ih _ _
      | aux => cases aux <;> first | rfl | exact ih _ _

theorem downValid_iff (steps : List Step) : downValid steps = true ↔ ∀ r, Step.raise r ∉ steps := by
  rw [downValid, List.all_eq_true]
  constructor
  · intro h r hr
    exact absurd (h _ hr) (by rw [isRaise]; decide)
  · intro h x hx
    cases x with
    | raise r => exact absurd hx (h r)
    | drop | dwell | verify => rfl

/-- Settles O18: the walk in closed form. -/
theorem upValidIsTheWalk : Obligations.UpValidIsTheWalk := by
  intro steps
  refine ⟨?_, downValid_iff steps⟩
  have hvalid : upValid steps = (upAfter .core false steps && upAfter .aux false steps
      && verifiesUp false false steps) := rfl
  rw [hvalid, walk_eq]
  split
  · rename_i h
    simp [h]
  · rename_i h
    simp [h]

/-! ### A grant (R55, R56, R64, R90) -/

theorem setCond_runs (k : Socket) (c : StepCondition) (s : State) :
    (setCond k c s) = { s with runs := put s.runs k ((s.run k).map fun x => { x with cond := c }) } := by
  unfold setCond
  cases h : s.run k with
  | some x => rfl
  | none =>
    have hsame : put s.runs k none = s.runs := by
      conv_lhs => rw [← h]
      exact put_look _ _
    rw [Option.map_none, hsame]

/-- The REG_FAULT condition after a grant is that of the line: a rail is RISING. -/
theorem regFaultHolds_rising {k : Socket} {r : RailKind} {s : State} (h : s.powered k r = true) :
    regFaultHolds k s = look s.rflt k := by
  unfold regFaultHolds
  cases r <;> rw [h] <;> simp

theorem powered_of_rail {s t : State} {k : Socket} {r : RailKind} (h : t.rail k r = s.rail k r) :
    t.powered k r = s.powered k r := by
  rw [State.powered, State.powered, h]

/-- The rail that is granted, in the words of R56. -/
def granted (k : Socket) (r : RailKind) (s : State) : State :=
  let up : State := railEnters k r
    ⟨.rising, some (s.now + 1000 * (s.brd.rail.get r).riseMs), s.effSetpoint k r / 5⟩ s
  { up with
    supply := { up.supply with grantSum := s.supply.grantSum + s.maxPower r }
    runs := put s.runs k ((s.run k).map fun x => { x with cond := .rising })
    fails := if look s.rflt k = true ∧ s.powered k .core = false ∧ s.powered k .aux = false then
        s.fails ++ [⟨k, .regFault, match r with | .core => 1#16 | .aux => 2#16, none⟩]
      else s.fails }

/-- A granted rail short of the REG_FAULT check. -/
def risen (k : Socket) (r : RailKind) (s : State) : State :=
  let up : State := railEnters k r
    ⟨.rising, some (s.now + 1000 * (s.brd.rail.get r).riseMs), s.effSetpoint k r / 5⟩ s
  { up with
    supply := { up.supply with grantSum := s.supply.grantSum + s.maxPower r }
    runs := put s.runs k ((s.run k).map fun x => { x with cond := .rising }) }

theorem risen_rail (k : Socket) (r : RailKind) (s : State) (q : RailKind) :
    (risen k r s).rail k q = if q = r then
      ⟨.rising, some (s.now + 1000 * (s.brd.rail.get r).riseMs), s.effSetpoint k r / 5⟩
      else s.rail k q := by
  have h := enterRail_rail k r
    ⟨.rising, some (s.now + 1000 * (s.brd.rail.get r).riseMs), s.effSetpoint k r / 5⟩ s k q
  simp only [true_and] at h
  exact h

theorem risen_powered_same (k : Socket) (r : RailKind) (s : State) : (risen k r s).powered k r = true := by
  rw [State.powered, risen_rail, if_pos rfl]

theorem risen_powered_other {r q : RailKind} (h : q ≠ r) (k : Socket) (s : State) :
    (risen k r s).powered k q = s.powered k q :=
  powered_of_rail (by rw [risen_rail, if_neg h])

/-- The detail of a REG_FAULT that a grant raises names the granted rail: the other one is not powered. -/
theorem risen_detail {k : Socket} {r : RailKind} {s : State} (hc : s.powered k .core = false)
    (ha : s.powered k .aux = false) :
    regFaultDetail k (risen k r s) = match r with | .core => 1#16 | .aux => 2#16 := by
  have hsame := risen_powered_same k r s
  unfold regFaultDetail
  cases r with
  | core =>
    rw [hsame, risen_powered_other RailKind.noConfusion, ha]
    rfl
  | aux =>
    rw [hsame, risen_powered_other RailKind.noConfusion, hc]
    rfl

theorem grantRail_granted_eq (k : Socket) (r : RailKind) (s : State) : grantRail k r s = granted k r s := by
  have hrisen : grantRail k r s = regFaultCheck k (regFaultHolds k s) (risen k r s) :=
    congrArg (regFaultCheck k (regFaultHolds k s)) (setCond_runs k .rising _)
  have hholds : regFaultHolds k (risen k r s) = look s.rflt k :=
    regFaultHolds_rising (risen_powered_same k r s)
  have hbefore : regFaultHolds k s = false ∧ look s.rflt k = true ↔
      look s.rflt k = true ∧ s.powered k .core = false ∧ s.powered k .aux = false := by
    unfold regFaultHolds
    cases look s.rflt k <;> simp
  rw [hrisen, regFaultCheck, hholds]
  by_cases hfault : look s.rflt k = true ∧ s.powered k .core = false ∧ s.powered k .aux = false
  · have ⟨_, hc, ha⟩ := hfault
    unfold granted
    rw [if_pos (hbefore.mpr hfault), risen_detail hc ha, if_pos hfault]
    rfl
  · unfold granted
    rw [if_neg (mt hbefore.mp hfault), if_neg hfault]
    rfl

/-- A list of distinct entries loses its head when the entry no longer passes the filter. -/
theorem filter_tail {α : Type} {p q : α → Bool} {l rest : List α} {a : α} (hp : l.filter p = a :: rest)
    (hn : (a :: rest).Nodup) (ha : q a = false) (hq : ∀ b, b ≠ a → q b = p b) : l.filter q = rest := by
  have hsub : l.filter q = (l.filter p).filter q := by
    rw [List.filter_filter]
    refine List.filter_congr fun b _ => ?_
    by_cases hb : b = a
    · subst hb
      rw [ha, Bool.false_and]
    · rw [hq b hb, Bool.and_self]
  have hrest : ∀ b ∈ rest, q b = true := by
    intro b hb
    have hne : b ≠ a := fun he => (List.nodup_cons.mp hn).1 (he ▸ hb)
    have hmem : b ∈ l.filter p := hp ▸ List.mem_cons_of_mem a hb
    rw [hq b hne]
    exact (List.mem_filter.mp hmem).2
  rw [hsub, hp, List.filter_cons, ha, if_neg Bool.false_ne_true, List.filter_eq_self.mpr hrest]

/-- A granted rail has left the head of the list. -/
theorem grantRail_waitingList {k : Socket} {r : RailKind} {rest : List (Socket × RailKind)} {s : State}
    (h : s.waitingList = (k, r) :: rest) : (grantRail k r s).waitingList = rest := by
  have hn := waitingList_nodup s
  rw [h] at hn
  rw [waitingList_railsIn] at h ⊢
  refine filter_tail h hn ?_ fun e he => ?_
  · rw [grantRail_rail, if_pos ⟨rfl, rfl⟩]
    rfl
  · have hne : ¬(e.1 = k ∧ e.2 = r) := fun hb => he (Prod.ext hb.1 hb.2)
    rw [grantRail_rail, if_neg hne]

/-- A granted rail is one more that rises. -/
theorem grantRail_risingCount {k : Socket} {r : RailKind} {s : State}
    (h : (s.rail k r).state = .waitGrant) : (grantRail k r s).risingCount = s.risingCount + 1 := by
  have hcount := enterRail_risingCount k r
    ⟨.rising, some (s.now + 1000 * (s.brd.rail.get r).riseMs), s.effSetpoint k r / 5⟩ s
  have hbefore : risesIn (s.rail k r) = 0 := if_neg (by rw [h]; decide)
  have hrails : (grantRail k r s).risingCount = (enterRail k r
      ⟨.rising, some (s.now + 1000 * (s.brd.rail.get r).riseMs), s.effSetpoint k r / 5⟩ s).risingCount := by
    rw [grantRail_granted_eq]
    exact risingCount_of_rails rfl
  rw [hbefore] at hcount
  rw [hrails, ← Nat.add_zero (State.risingCount _), hcount]
  rfl

theorem grantDecision_cons {k : Socket} {r : RailKind} {rest : List (Socket × RailKind)} {s : State}
    (h : s.waitingList = (k, r) :: rest) :
    grantDecision s = if s.risingCount < s.board.host.inrushLimit ∧ admitted r s = true then
      grantAll rest (grantRail k r s) else s := by
  rw [grantDecision, h]
  rfl

theorem admitted_iff (r : RailKind) (s : State) : admitted r s = true ↔
    s.supply.railAllotment + s.supply.grantSum + s.maxPower r ≤ s.bulkLimit := decide_eq_true_iff

/-- Settles O19: the decision looks at the head, and a granted head leaves the rest of the list. -/
theorem grantsFollowTheHeadOfTheList : Obligations.GrantsFollowTheHeadOfTheList := by
  intro s
  refine ⟨grantDecision_nil, fun k r rest hlist => ⟨fun hfull => ?_, fun hlimit hbudget => ?_⟩⟩
  · rw [grantDecision_cons hlist]
    refine if_neg fun ⟨hlimit, hadmitted⟩ => ?_
    have hbudget := (admitted_iff r s).mp hadmitted
    omega
  · have hwaits : (s.rail k r).state = .waitGrant :=
      waitingList_mem.mp (hlist ▸ List.mem_cons_self)
    have hgranted := grantRail_granted_eq k r s
    have hrest := grantRail_waitingList hlist
    have hcount := grantRail_risingCount hwaits
    have hdecision : grantDecision s = grantDecision (grantRail k r s) := by
      rw [grantDecision_cons hlist, if_pos ⟨hlimit, (admitted_iff r s).mpr hbudget⟩]
      exact (congrArg (fun l => grantAll l (grantRail k r s)) hrest).symm
    rw [hgranted] at hdecision hrest hcount
    exact ⟨hdecision, hrest, hcount⟩

/-! ### The regulator fault line (R64) -/

theorem regFaultDetail_eq {k : Socket} {s : State} (h : s.powered k .core = true ∨ s.powered k .aux = true) :
    regFaultDetail k s = if s.powered k .core = true then (if s.powered k .aux = true then 3#16 else 1#16)
      else 2#16 := by
  unfold regFaultDetail
  cases hc : s.powered k .core <;> cases ha : s.powered k .aux
  · rw [hc, ha] at h
    simp at h
  all_goals rfl

/-- Settles O21: the condition becomes true by an asserted level where none was held and a rail is up. -/
theorem regFaultIsRaisedWhenItsConditionBecomesTrue :
    Obligations.RegFaultIsRaisedWhenItsConditionBecomesTrue := by
  intro k asserted s hr
  have hexec : exec (.rfltNLevel k asserted) s = .next (takeRflt k asserted s) :=
    exec_effect (.rfltNLevel k asserted) rfl hr
  have hline : look (put s.rflt k asserted) k = asserted := look_put_same _ _ _
  have hpowered (r : RailKind) : ({ s with rflt := put s.rflt k asserted } : State).powered k r
      = s.powered k r := rfl
  have hdetail : regFaultDetail k { s with rflt := put s.rflt k asserted } = regFaultDetail k s := rfl
  have hholds : regFaultHolds k { s with rflt := put s.rflt k asserted }
      = (asserted && (s.powered k .core || s.powered k .aux)) := by
    rw [regFaultHolds, hline, hpowered, hpowered]
  have hbecomes : regFaultHolds k s = false
        ∧ regFaultHolds k { s with rflt := put s.rflt k asserted } = true ↔
      asserted = true ∧ look s.rflt k = false ∧ (s.powered k .core = true ∨ s.powered k .aux = true) := by
    rw [hholds, regFaultHolds]
    cases look s.rflt k <;> cases s.powered k .core <;> cases s.powered k .aux <;> simp
  rw [hexec, takeRflt, regFaultCheck]
  by_cases hraised : asserted = true ∧ look s.rflt k = false
      ∧ (s.powered k .core = true ∨ s.powered k .aux = true)
  · have ⟨_, _, hup⟩ := hraised
    rw [if_pos (hbecomes.mpr hraised), if_pos hraised, hdetail, regFaultDetail_eq hup]
    rfl
  · rw [if_neg (mt hbecomes.mp hraised), if_neg hraised]

end Sys2Proof.Machine
end

section
/-! SUPPORT. The proofs of chapter 04, rail sequencing: the steps of a run and the timed events. -/

namespace Sys2Proof.Machine

/-! ### A run that stands (R52) -/

/-- The steps of a run from the step in progress on. -/
theorem stepNow_eq {k : Socket} {x : Run} {s : State} (h : s.run k = some x) :
    stepNow k s = ((look s.profiles x.profile).drop (x.step - 1)).head? := by
  unfold stepNow
  rw [h]
  rfl

theorem nextStep_eq {k : Socket} {x : Run} {s : State} (h : s.run k = some x) :
    nextStep k s = runSteps (((look s.profiles x.profile).drop (x.step - 1)).drop 1) (x.step + 1) k s := by
  unfold nextStep
  rw [h]
  rfl

theorem setCond_same {k : Socket} {x : Run} {s : State} (h : s.run k = some x) :
    setCond k x.cond s = s := by
  have hput : put s.runs k (some x) = s.runs := by
    rw [← h]
    exact put_look _ _
  rw [setCond_stands h, runStands, hput]

/-- A run that waits for a grant already joins the list with its condition as it is. -/
theorem joinList_stands {k : Socket} {x : Run} {s : State} (h : s.run k = some x)
    (hc : x.cond = .waitGrant) (r : RailKind) :
    joinList k r s = grantDecision (railEnters k r ⟨.waitGrant, none, 0⟩ s) := by
  have hrun : (railEnters k r ⟨.waitGrant, none, 0⟩ s).run k = some x := h
  have hsame := setCond_same hrun
  rw [hc] at hsame
  exact congrArg grantDecision hsame

/-! ### The table of `runSteps` (R53, R57, R58, R59, R60, R62) -/

theorem risingOf_ne_zero (k : Socket) (s : State) : (s.risingOf k ≠ 0) ↔
    ((s.rail k .core).state = .rising ∨ (s.rail k .aux).state = .rising) := by
  unfold State.risingOf
  by_cases hc : (s.rail k .core).state = .rising <;> by_cases ha : (s.rail k .aux).state = .rising <;>
    simp [hc, ha]

section
variable {k : Socket} {x : Run} {s : State} (hx : s.run k = some x) (r : RailKind) (i : Nat)
  (rest : List Step)
include hx

theorem runSteps_raise_off (h : (s.rail k r).state = .off) : runSteps (.raise r :: rest) i k s
    = grantDecision (railEnters k r ⟨.waitGrant, none, 0⟩ (runStands k x i .waitGrant s)) := by
  rw [runSteps]
  simp only [h]
  rw [setStep_stands hx]
  exact joinList_stands (runStands_run k x i .waitGrant s) rfl r

theorem runSteps_raise_on (h : (s.rail k r).state = .on) : runSteps (.raise r :: rest) i k s
    = runSteps rest (i + 1) k (runStands k x i .rising s) := by
  rw [runSteps]
  simp only [h]
  rw [setStep_stands hx]

theorem runSteps_raise_falling (h : (s.rail k r).state = .falling) :
    runSteps (.raise r :: rest) i k s = runStands k x i .waitOff s := by
  rw [runSteps]
  simp only [h]
  exact setStep_stands hx i .waitOff

theorem runSteps_drop_on (h : (s.rail k r).state = .on) : runSteps (.drop r :: rest) i k s
    = railEnters k r (fallingRail r s) (runStands k x i .falling s) := by
  have hrail : ((runStands k x i .falling s).rail k r).state = .on := h
  rw [runSteps]
  simp only [h]
  rw [setStep_stands hx, dropRail_eq, railDropped, hrail]
  rfl

theorem runSteps_drop_rising (h : (s.rail k r).state = .rising) : runSteps (.drop r :: rest) i k s
    = grantDecision (railEnters k r (fallingRail r s) (runStands k x i .falling s)) := by
  have hrail : ((runStands k x i .falling s).rail k r).state = .rising := h
  rw [runSteps]
  simp only [h]
  rw [setStep_stands hx, dropRail_eq, railDropped, hrail]
  rfl

theorem runSteps_drop_falling (h : (s.rail k r).state = .falling) :
    runSteps (.drop r :: rest) i k s = runStands k x i .falling s := by
  rw [runSteps]
  simp only [h]
  exact setStep_stands hx i .falling

theorem runSteps_drop_waitGrant (h : (s.rail k r).state = .waitGrant) :
    runSteps (.drop r :: rest) i k s
      = runSteps rest (i + 1) k (railEnters k r ⟨.off, none, 0⟩ (runStands k x i .falling s)) := by
  have hrail : ((runStands k x i .falling s).rail k r).state = .waitGrant := h
  rw [runSteps]
  simp only [h]
  rw [setStep_stands hx, dropRail_eq, railDropped, hrail]

theorem runSteps_drop_off (h : (s.rail k r).state = .off) : runSteps (.drop r :: rest) i k s
    = runSteps rest (i + 1) k (runStands k x i .falling s) := by
  rw [runSteps]
  simp only [h]
  rw [setStep_stands hx]

theorem runSteps_dwell (ms : Nat) : runSteps (.dwell ms :: rest) i k s
    = runStands k x i (.dwell (s.now + 1000 * ms)) s := by
  rw [runSteps]
  exact setStep_stands hx i _

theorem runSteps_verify (lo hi : Nat) : runSteps (.verify r lo hi :: rest) i k s
    = runStands k x i .sample s := by
  rw [runSteps]
  exact setStep_stands hx i _

theorem runSteps_nil_up (h : x.direction = .up) :
    runSteps [] i k s = { s with runs := put s.runs k none } := by
  rw [runSteps, finishRun, hx]
  dsimp only
  rw [h]
  rfl

theorem runSteps_nil_down (h : x.direction = .down) :
    let fallen : State := railDropped k .aux (railDropped k .core s)
    let ended : State := if bothOff k fallen = true then
        { fallen with runs := put fallen.runs k none } else runStands k x x.step .falling fallen
    runSteps [] i k s
      = if (s.rail k .core).state = .rising ∨ (s.rail k .aux).state = .rising then grantDecision ended
        else ended := by
  intro fallen ended
  have hdropped : dropBoth k s = fallen := by
    show dropRail k .aux (dropRail k .core s) = _
    rw [dropRail_eq, dropRail_eq]
  have hrun : fallen.run k = some x := by
    have hruns : (dropBoth k s).runs = s.runs :=
      (dropRail_runs k .aux _).trans (dropRail_runs k .core s)
    rw [← hdropped, run_of_runs hruns, hx]
  have hended : (if bothOff k (dropBoth k s) = true then (dropBoth k s).setRun k none
      else setCond k .falling (dropBoth k s)) = ended := by
    rw [hdropped, setCond_stands hrun]
    rfl
  rw [runSteps, finishRun, hx]
  dsimp only
  rw [h]
  dsimp only
  rw [hended]
  simp only [decide_eq_true_eq, risingOf_ne_zero]

end

/-! ### The ends of rises, falls and dwells (R56, R57, R58) -/

section
variable {k : Socket} {r : RailKind} {s : State}

/-- A rail that has risen lets no step go on that did not wait for it. -/
theorem endRise_stands (h : (s.rail k r).state = .rising)
    (hno : ∀ x rest, s.run k = some x → x.cond = .rising →
      (look s.profiles x.profile).drop (x.step - 1) ≠ .raise r :: rest) :
    endRise k r s = grantDecision (railEnters k r ⟨.on, none, (s.rail k r).code⟩ s) := by
  rw [endRise, if_pos h]
  refine congrArg grantDecision ?_
  split
  · rename_i x hx
    refine if_neg fun ⟨hc, hstep⟩ => ?_
    rw [stepNow_eq hx] at hstep
    obtain ⟨rest, hrest⟩ := List.head?_eq_some_iff.mp hstep
    exact hno x rest hx hc hrest
  · rfl

/-- The waiting RAISE completes, and the next step begins before the grant decision. -/
theorem endRise_completes {x : Run} {rest : List Step} (h : (s.rail k r).state = .rising)
    (hx : s.run k = some x) (hc : x.cond = .rising)
    (hsteps : (look s.profiles x.profile).drop (x.step - 1) = .raise r :: rest) :
    endRise k r s = grantDecision
      (runSteps rest (x.step + 1) k (railEnters k r ⟨.on, none, (s.rail k r).code⟩ s)) := by
  have hup : (enterRail k r ⟨.on, none, (s.rail k r).code⟩ s).run k = some x := hx
  have hstep : stepNow k (enterRail k r ⟨.on, none, (s.rail k r).code⟩ s) = some (.raise r) := by
    rw [stepNow_eq hup]
    exact congrArg List.head? hsteps
  have hnext : nextStep k (enterRail k r ⟨.on, none, (s.rail k r).code⟩ s)
      = runSteps rest (x.step + 1) k (enterRail k r ⟨.on, none, (s.rail k r).code⟩ s) := by
    rw [nextStep_eq hup]
    exact congrArg (fun l => runSteps (l.drop 1) (x.step + 1) k _) hsteps
  rw [endRise, if_pos h]
  refine congrArg grantDecision ?_
  split
  · rename_i y hy
    cases hup.symm.trans hy
    rw [if_pos ⟨hc, hstep⟩]
    exact hnext
  · rename_i hnone
    exact absurd (hup.symm.trans hnone) (Option.some_ne_none x)

theorem endFall_eq (h : (s.rail k r).state = .falling) :
    endFall k r s = afterFall k r (railEnters k r ⟨.off, none, 0⟩ s) := if_pos h

theorem afterFall_none (hx : s.run k = none) : afterFall k r s = s := by
  rw [afterFall, hx]

/-- A DROP that waits goes on when the rail it names is OFF. -/
theorem afterFall_drop {x : Run} {q : RailKind} {rest : List Step} (hx : s.run k = some x)
    (hc : x.cond = .falling)
    (hsteps : (look s.profiles x.profile).drop (x.step - 1) = .drop q :: rest) :
    afterFall k r s
      = if (s.rail k q).state = .off then runSteps rest (x.step + 1) k s else s := by
  have hstep : stepNow k s = some (.drop q) := by rw [stepNow_eq hx, hsteps]; rfl
  rw [afterFall, hx]
  dsimp only
  rw [hc, hstep, nextStep_eq hx, hsteps]
  rfl

/-- At the end of a DOWN run the fall is checked. -/
theorem afterFall_ends {x : Run} (hx : s.run k = some x) (hc : x.cond = .falling)
    (hno : ∀ q rest, (look s.profiles x.profile).drop (x.step - 1) ≠ .drop q :: rest) (i : Nat) :
    afterFall k r s = runSteps [] i k s := by
  rw [afterFall, hx]
  dsimp only
  rw [hc]
  split
  · rename_i q _ hstep
    rw [stepNow_eq hx] at hstep
    obtain ⟨rest, hrest⟩ := List.head?_eq_some_iff.mp hstep
    exact absurd hrest (hno q rest)
  · rw [runSteps]
  · rename_i hcond _
    exact absurd hcond StepCondition.noConfusion
  · rename_i hne _ _
    exact absurd rfl hne

/-- A RAISE that waits for OFF joins the inrush waiting list. -/
theorem afterFall_raise {x : Run} {q : RailKind} {rest : List Step} (hx : s.run k = some x)
    (hc : x.cond = .waitOff)
    (hsteps : (look s.profiles x.profile).drop (x.step - 1) = .raise q :: rest) :
    afterFall k r s = if q = r then grantDecision (runStands k x x.step .waitGrant
      (railEnters k r ⟨.waitGrant, none, 0⟩ s)) else s := by
  have hstep : stepNow k s = some (.raise q) := by rw [stepNow_eq hx, hsteps]; rfl
  have hjoin : joinList k r s = grantDecision (runStands k x x.step .waitGrant
      (railEnters k r ⟨.waitGrant, none, 0⟩ s)) := by
    have hrun : (enterRail k r ⟨.waitGrant, none, 0⟩ s).run k = some x := hx
    rw [joinList, setCond_stands hrun]
    rfl
  rw [afterFall, hx]
  dsimp only
  rw [hc, hstep, ← hjoin]

/-- No other step waits for a fall. -/
theorem afterFall_stands {x : Run} (hx : s.run k = some x) (hc : x.cond ≠ .falling)
    (hno : x.cond ≠ .waitOff
      ∨ ∀ q rest, (look s.profiles x.profile).drop (x.step - 1) ≠ .raise q :: rest) :
    afterFall k r s = s := by
  rw [afterFall, hx]
  dsimp only
  split
  · rename_i hcond _
    exact absurd hcond hc
  · rename_i hcond _
    exact absurd hcond hc
  · rename_i q hcond hstep
    rw [stepNow_eq hx] at hstep
    obtain ⟨rest, hrest⟩ := List.head?_eq_some_iff.mp hstep
    rcases hno with hno | hno
    · exact absurd hcond hno
    · exact absurd hrest (hno q rest)
  · rfl

/-- A dwell that ends completes its step. -/
theorem endDwell_completes {x : Run} {e : Nat} (hx : s.run k = some x) (hc : x.cond = .dwell e) :
    endDwell k s
      = runSteps (((look s.profiles x.profile).drop (x.step - 1)).drop 1) (x.step + 1) k s := by
  rw [← nextStep_eq hx, endDwell, hx]
  obtain ⟨d, p, i, c⟩ := x
  cases hc
  rfl

theorem endDwell_stands (h : ∀ p i d e, s.run k ≠ some ⟨d, p, i, .dwell e⟩) : endDwell k s = s := by
  unfold endDwell
  split
  · rename_i d p i e hx
    exact absurd hx (h p i d e)
  · rfl

end

/-- Settles O20: the events by the rail's state and what the run waits for; the steps by their kind. -/
theorem timedRailEventsAdvanceTheRun : Obligations.TimedRailEventsAdvanceTheRun := by
  intro k r s hr on off left
  have hrise : exec (.riseEnd k r) s = .next (endRise k r s) := exec_effect (.riseEnd k r) rfl hr
  have hfall : exec (.fallEnd k r) s = .next (endFall k r s) := exec_effect (.fallEnd k r) rfl hr
  have hdwell : exec (.dwellEnd k) s = .next (endDwell k s) := exec_effect (.dwellEnd k) rfl hr
  rw [hrise, hfall, hdwell]
  refine ⟨fun h => ?_, fun h => ?_, fun h => ?_, fun h => ⟨fun hno => ?_, fun x rest hx hc hs => ?_⟩,
    fun h => ?_, fun x e hx hc => ?_, fun x i rest hx => ?_⟩
  · rw [endRise_of_ne h]
  · rw [endFall_of_ne h]
  · rw [endDwell_stands h]
  · rw [endRise_stands h hno]
  · rw [endRise_completes h hx hc hs]
  · rw [endFall_eq h]
    refine ⟨fun hx => ?_, fun x hx => ?_⟩
    · rw [afterFall_none (show (railEnters k r ⟨.off, none, 0⟩ s).run k = none from hx)]
    · have hoff : (railEnters k r ⟨.off, none, 0⟩ s).run k = some x := hx
      refine ⟨fun q rest hc hs => ?_, fun hc hno => ?_, fun q rest hc hs => ?_, fun hc hno => ?_⟩
      · rw [afterFall_drop hoff hc hs]
      · rw [afterFall_ends hoff hc hno]
      · rw [afterFall_raise hoff hc hs]
      · rw [afterFall_stands hoff hc hno]
  · rw [endDwell_completes hx hc]
  · exact ⟨runSteps_raise_off hx r i rest, runSteps_raise_on hx r i rest,
      runSteps_raise_falling hx r i rest, runSteps_drop_on hx r i rest, runSteps_drop_rising hx r i rest,
      runSteps_drop_falling hx r i rest, runSteps_drop_waitGrant hx r i rest,
      runSteps_drop_off hx r i rest, runSteps_dwell hx i rest, runSteps_verify hx r i rest,
      runSteps_nil_up hx i, runSteps_nil_down hx i⟩

end Sys2Proof.Machine
end

section
/-! SUPPORT. The proofs of chapter 01: completions, stop orders, and the socket requests. -/

namespace Sys2Proof.Machine

/-! ### Completions (R5, R9) -/

/-- The record at an entry to a stop destination, read off the state. -/
theorem enterDest_eq {k : Socket} {d : StopDest} {s : State} (h : (s.sock k).stopDest = some d) :
    enterDest k s = { s with
      sockets := put s.sockets k
        (destRecord (retireBin k s) s.board.host.holdTime d (s.sock k)) } := by
  have hdest : destOf (s.sock k) = d := by
    rw [destOf, h]
    rfl
  rw [enterDest, hdest]
  rfl

theorem endShutdown_eq (s : State) :
    endShutdown s = if s.mode = .shutdown ∧ ∀ j, s.busy j = false then
      { s with mode := .config, nextTick := none, timers := ⟨.stopped, .stopped⟩ } else s := by
  unfold endShutdown
  simp only [noneBusy_iff]
  rfl

/-- Settles O22: each report by the socket's state and its run; the record entered by the destination. -/
theorem profileReportsMoveTheSocket : Obligations.ProfileReportsMoveTheSocket := by
  intro k s hr
  have hup : exec (.upProfileComplete k) s = .next (completeUp k s) :=
    exec_effect (.upProfileComplete k) rfl hr
  have hdown : exec (.downProfileComplete k) s = .next (completeDown k s) :=
    exec_effect (.downProfileComplete k) rfl hr
  rw [hup, hdown]
  refine ⟨fun hs hrun => ?_, fun h => ?_, fun h => ?_, fun hs hrun hoff d hd => ?_⟩
  · exact congrArg _ (if_pos ⟨hs, hrun⟩)
  · exact congrArg _ (if_neg fun ⟨hs, hrun⟩ => h.elim (absurd hs) (absurd hrun))
  · refine congrArg _ (if_neg fun ⟨hs, hrun, hoff⟩ => ?_)
    rcases h with h | h | h
    · exact h hs
    · exact h hrun
    · exact absurd (hoff.symm.trans h) Bool.noConfusion
  · intro entered settled
    have hentered : enterDest k s = settled := by
      rw [enterDest_eq hd]
      cases d <;> rfl
    have hcomplete : completeDown k s = endShutdown (enterDest k s) := if_pos ⟨hs, hrun, hoff⟩
    rw [hcomplete, hentered, endShutdown_eq]

/-! ### The Rail Sequencer does not read the orders in flight -/

/-- The part with other orders in flight. -/
def withOrders (o : List StopOrder) (s : State) : State := { s with orders := o }

/-- An operation that neither reads nor changes the orders in flight. -/
def IgnoresOrders (f : State → State) : Prop := ∀ o s, f (withOrders o s) = withOrders o (f s)

theorem IgnoresOrders.comp {f g : State → State} (hg : IgnoresOrders g) (hf : IgnoresOrders f) :
    IgnoresOrders fun s => g (f s) := fun o s => (congrArg g (hf o s)).trans (hg o (f s))

theorem IgnoresOrders.ite {p : State → Prop} [DecidablePred p] {f g : State → State}
    (hp : ∀ o s, p (withOrders o s) ↔ p s) (hf : IgnoresOrders f) (hg : IgnoresOrders g) :
    IgnoresOrders fun s => if p s then f s else g s := by
  intro o s
  by_cases h : p s
  · simp only [if_pos h, if_pos ((hp o s).mpr h)]
    exact hf o s
  · simp only [if_neg h, if_neg (mt (hp o s).mp h)]
    exact hg o s

theorem ignores_id : IgnoresOrders fun s => s := fun _ _ => rfl

theorem ignores_enterRail (k : Socket) (r : RailKind) (x : Rail) : IgnoresOrders (enterRail k r x) :=
  fun _ _ => rfl

theorem ignores_setRun (k : Socket) (x : Option Run) : IgnoresOrders fun s => s.setRun k x :=
  fun _ _ => rfl

theorem ignores_setCond (k : Socket) (c : StepCondition) : IgnoresOrders (setCond k c) := by
  intro o s
  rw [setCond_runs, setCond_runs]
  rfl

theorem ignores_setStep (k : Socket) (i : Nat) (c : StepCondition) : IgnoresOrders (setStep k i c) := by
  intro o s
  have hrun : (withOrders o s).run k = s.run k := rfl
  unfold setStep
  rw [hrun]
  cases s.run k <;> rfl

theorem ignores_grantRail (k : Socket) (r : RailKind) : IgnoresOrders (grantRail k r) := by
  intro o s
  rw [grantRail_granted_eq, grantRail_granted_eq]
  rfl

theorem ignores_grantAll (l : List (Socket × RailKind)) : IgnoresOrders (grantAll l) := by
  induction l with
  | nil => exact ignores_id
  | cons e rest ih =>
    obtain ⟨k, r⟩ := e
    exact .ite (fun _ _ => Iff.rfl) (ih.comp (ignores_grantRail k r)) ignores_id

theorem ignores_grantDecision : IgnoresOrders grantDecision := fun o s => ignores_grantAll s.waitingList o s

theorem ignores_joinList (k : Socket) (r : RailKind) : IgnoresOrders (joinList k r) :=
  ignores_grantDecision.comp ((ignores_setCond k .waitGrant).comp (ignores_enterRail k r _))

theorem ignores_dropRail (k : Socket) (r : RailKind) : IgnoresOrders (dropRail k r) := by
  intro o s
  have hrail : (withOrders o s).rail k r = s.rail k r := rfl
  unfold dropRail
  rw [hrail]
  cases (s.rail k r).state <;> rfl

theorem ignores_dropBoth (k : Socket) : IgnoresOrders (dropBoth k) :=
  (ignores_dropRail k .aux).comp (ignores_dropRail k .core)

/-- The end of a DOWN run, short of the grant decision. -/
theorem ignores_downEnd (k : Socket) : IgnoresOrders fun s =>
    if bothOff k (dropBoth k s) = true then (dropBoth k s).setRun k none
    else setCond k .falling (dropBoth k s) :=
  .ite (fun o s => by rw [ignores_dropBoth k o s]; exact Iff.rfl)
    ((ignores_setRun k none).comp (ignores_dropBoth k))
    ((ignores_setCond k .falling).comp (ignores_dropBoth k))

theorem ignores_finishRun (k : Socket) : IgnoresOrders (finishRun k) := by
  intro o s
  have hrun : (withOrders o s).run k = s.run k := rfl
  unfold finishRun
  rw [hrun]
  cases s.run k with
  | none => rfl
  | some x =>
    dsimp only
    cases x.direction with
    | up => rfl
    | down =>
      exact IgnoresOrders.ite (p := fun s => decide (s.risingOf k ≠ 0) = true)
        (fun _ _ => Iff.rfl) (ignores_grantDecision.comp (ignores_downEnd k)) (ignores_downEnd k) o s

theorem ignores_runSteps (l : List Step) (i : Nat) (k : Socket) : IgnoresOrders (runSteps l i k) := by
  induction l generalizing i with
  | nil => exact ignores_finishRun k
  | cons x rest ih =>
    intro o s
    have hrail (r : RailKind) : (withOrders o s).rail k r = s.rail k r := rfl
    have hset (c : StepCondition) := ignores_setStep k i c o s
    cases x with
    | raise r =>
      simp only [runSteps, hrail]
      cases (s.rail k r).state with
      | off => exact ((ignores_joinList k r).comp (ignores_setStep k i .waitGrant)) o s
      | on => exact ((ih (i + 1)).comp (ignores_setStep k i .rising)) o s
      | falling | waitGrant | rising => exact hset _
    | drop r =>
      simp only [runSteps, hrail]
      cases (s.rail k r).state with
      | on => exact ((ignores_dropRail k r).comp (ignores_setStep k i .falling)) o s
      | rising => exact (ignores_grantDecision.comp
          ((ignores_dropRail k r).comp (ignores_setStep k i .falling))) o s
      | falling => exact hset _
      | waitGrant => exact ((ih (i + 1)).comp
          ((ignores_dropRail k r).comp (ignores_setStep k i .falling))) o s
      | off => exact ((ih (i + 1)).comp (ignores_setStep k i .falling)) o s
    | dwell ms => exact hset _
    | verify r lo hi => exact hset _

theorem ignores_abandonRail (k : Socket) (r : RailKind) : IgnoresOrders (abandonRail k r) := by
  intro o s
  have hrail : (withOrders o s).rail k r = s.rail k r := rfl
  have hdrop := ignores_dropRail k r o s
  unfold abandonRail
  rw [hrail]
  cases (s.rail k r).state with
  | waitGrant | rising => exact hdrop
  | off | on | falling => rfl

theorem ignores_abandonUp (k : Socket) : IgnoresOrders (abandonUp k) := by
  have hended : IgnoresOrders fun s => (abandonRail k .aux (abandonRail k .core s)).setRun k none :=
    (ignores_setRun k none).comp ((ignores_abandonRail k .aux).comp (ignores_abandonRail k .core))
  intro o s
  have hrun : (withOrders o s).run k = s.run k := rfl
  unfold abandonUp
  rw [hrun]
  cases s.run k with
  | none => rfl
  | some x =>
    exact IgnoresOrders.ite
      (p := fun s => (decide (s.risingOf k ≠ 0) || !(s.waitingOf k).isEmpty) = true)
      (fun _ _ => Iff.rfl) (ignores_grantDecision.comp hended) hended o s

theorem ignores_stopRun (k : Socket) : IgnoresOrders (stopRun k) := by
  have hhalted : IgnoresOrders fun s => if (s.sock k).state = .starting then abandonUp k s else s :=
    .ite (fun _ _ => Iff.rfl) (ignores_abandonUp k) ignores_id
  intro o s
  have hstart (p : ProfileId) : IgnoresOrders (startRun k .down p) := fun o s =>
    ignores_runSteps (look s.profiles p) 1 k o (s.setRun k (some ⟨.down, p, 1, .sample⟩))
  have hh := hhalted o s
  dsimp only at hh
  unfold stopRun
  dsimp only
  rw [hh]
  exact hstart _ o _

theorem downStarted_withOrders (k : Socket) (o : List StopOrder) (s : State) :
    downStarted k (withOrders o s) = withOrders o (downStarted k s) := by
  rw [← stopRun_eq, ← stopRun_eq]
  exact ignores_stopRun k o s

/-- A stop is the same whatever orders are in flight. -/
theorem stops_withOrders {k : Socket} {d : OrderDest} {o : List StopOrder} {s t : State}
    (h : Stops k d (withOrders o s) t) : Stops k d s t := by
  unfold Stops at h ⊢
  rw [downStarted_withOrders] at h
  exact h

theorem stopFrame_withOrders {o : List StopOrder} {s t : State} (h : StopFrame (withOrders o s) t) :
    StopFrame s t := h

theorem modSock_withOrders (o : List StopOrder) (k : Socket) (f : SocketRecord → SocketRecord) (s : State) :
    (withOrders o s).modSock k f = { s with orders := o, sockets := put s.sockets k (f (s.sock k)) } := rfl

theorem stopSocketBy_answer (k : Socket) (d : OrderDest) (s : State) :
    (stopSocketBy k d s).answer = s.answer :=
  (congrArg State.answer (stopSocketBy_only k d s).eq :)

/-- Settles O23: the three laws of a stop order, the order taken off the list first. -/
theorem stopOrdersActByState : Obligations.StopOrdersActByState := by
  intro o s hr
  have hexec : exec (.stopOrder o) s = .next (takeOrder o (withOrders (s.orders.erase o) s)) :=
    exec_effect (.stopOrder o) rfl hr
  refine ⟨fun hlive => ⟨_, hexec, ?_⟩, fun hstop => ?_, fun hidle => ?_⟩
  · have htaken : takeOrder o (withOrders (s.orders.erase o) s)
        = stopSocketBy o.socket o.dest (withOrders (s.orders.erase o) s) := takeOrder_live hlive
    rw [htaken]
    exact ⟨stops_withOrders (stopSocketBy_stops _ _ _), stopFrame_withOrders (stopSocketBy_frame _ _ _),
      stopSocketBy_orders _ _ _, stopSocketBy_answer _ _ _⟩
  · have htaken : takeOrder o (withOrders (s.orders.erase o) s)
        = (withOrders (s.orders.erase o) s).modSock o.socket (restopRecord o.dest) :=
      takeOrder_stopping hstop
    rw [hexec, htaken, modSock_withOrders]
    rfl
  · have htaken : takeOrder o (withOrders (s.orders.erase o) s) = withOrders (s.orders.erase o) s :=
      takeOrder_idle hidle
    rw [hexec, htaken]
    rfl

/-! ### The checks of the socket requests (R12) -/

/-- The checks of one request, from the modes in which it is accepted. -/
theorem request_checks {n : Byte} {c : Instr} {modes : List Mode} {accepted : Bool}
    {body : Socket → State → State} {s : State}
    (hexec : exec c s = .next (socketRequest n accepted body s)) (hmodes : s.mode ∉ modes → accepted = false) :
    (15 < n.toNat → Refuses c s .range)
    ∧ ∀ k : Socket, k.val = n.toNat →
      (s.board.attach = .attaching → Refuses c s .busy)
      ∧ (s.board.attach ≠ .attaching → s.board.attach ≠ .attached → Refuses c s .notAttached)
      ∧ (s.board.attach = .attached → (s.sock k).state = .empty → Refuses c s .emptySocket)
      ∧ (s.board.attach = .attached → (s.sock k).state ≠ .empty → s.mode ∉ modes →
          Refuses c s .wrongMode) := by
  simp only [Refuses, hexec]
  refine ⟨fun hn => ?_, fun k hk => ⟨fun hb => ?_, fun hb ha => ?_, fun ha he => ?_, fun ha he hm => ?_⟩⟩
  · exact congrArg _ (socketRequest_range hn _ _ _)
  · exact congrArg _ (socketRequest_busy hk _ _ hb)
  · exact congrArg _ (socketRequest_notAttached hk _ _ hb ha)
  · rw [socketRequest_attached hk _ _ ha, if_pos he]
    rfl
  · rw [hmodes hm, socketRequest_wrongMode hk _ ha he]
    rfl

/-- Settles O24: every socket request is its checks, with its own modes. -/
theorem socketRequestChecksRunInOrder : Obligations.SocketRequestChecksRunInOrder := by
  intro n v s hr c hc
  have hexec (c : Instr) (hc : isResetCommand c = false) : exec c s = .next (effectOf c s) :=
    exec_effect c hc hr
  simp only [List.mem_cons, List.not_mem_nil, or_false] at hc
  rcases hc with rfl | rfl | rfl | rfl | rfl
  · exact request_checks (hexec (.startSocket n) rfl) fun h => by simpa using h
  · exact request_checks (hexec (.stopSocket n) rfl) fun h => by simpa using h
  · exact request_checks (hexec (.retrySocket n) rfl) fun h => by simpa using h
  · exact request_checks (hexec (.clearSocket n) rfl) fun h => by simpa using h
  · refine request_checks (hexec (.setSocketParams n v) rfl) fun h => ?_
    cases hmode : s.mode <;> simp [hmode] at h

/-! ### StartSocket, StopSocket, RetrySocket and hold expiries (R11, R13, R14, R15) -/

/-- An entry to STARTING is the same whatever is answered. -/
theorem EntersStarting.answered {k : Socket} {r : SocketRecord} {s t : State}
    (h : EntersStarting k r s t) (a : Option Answer) : EntersStarting k r s { t with answer := a } := by
  obtain ⟨hsock, hothers, hheat, htick, hrun, hfirst, hgrants, hstart, hframe⟩ := h
  exact ⟨hsock, hothers, hheat, htick, hrun, hfirst, hgrants,
    congrArg (fun u : State => { u with answer := a }) hstart,
    congrArg (fun u : State => { u with answer := a }) hframe⟩

theorem StopFrame.answered {s t : State} (h : StopFrame s t) (a : Option Answer) :
    StopFrame s { t with answer := a } := by
  unfold StopFrame at h ⊢
  exact congrArg (fun u : State => { u with answer := a }) h

theorem replySocket_state {k : Socket} {x : SocketState} {t : State} (h : (t.sock k).state = x)
    (r : Result) : replySocket k r t = { t with answer := some ⟨r, put1 x.code⟩ } := by
  rw [← h]
  rfl

/-- An entry to STARTING that is replied. -/
theorem enterStarting_replied {k : Socket} {r : SocketRecord} {s t : State} (h : EntersStarting k r s t) :
    EntersStarting k r s (replySocket k .ok t)
      ∧ (replySocket k .ok t).answer = some ⟨.ok, put1 SocketState.starting.code⟩ := by
  have hstate : (t.sock k).state = .starting := by
    rw [h.1]
    rfl
  rw [replySocket_state hstate]
  exact ⟨h.answered _, rfl⟩

theorem useRetry_enters (k : Socket) (s : State) :
    EntersStarting k { s.sock k with retries := (s.sock k).retries + 1 } s (useRetry k s) :=
  enterStarting_modSock k (fun r => { r with retries := r.retries + 1 }) s rfl

theorem enterStarting_answer (k : Socket) (s : State) : (enterStarting k s).answer = s.answer :=
  (congrArg State.answer (enterStarting_only k s).eq :)

theorem useRetry_answer (k : Socket) (s : State) : (useRetry k s).answer = s.answer :=
  enterStarting_answer k _

theorem canExpire_iff (r : SocketRecord) :
    canExpire r = true ↔ r.expiryDue = true ∨ ∃ n, r.holdTime = some (n + 1) := by
  unfold canExpire
  cases r.holdTime with
  | none => simp
  | some n => cases n <;> simp

theorem expiryMode_iff (m : Mode) : expiryMode m = true ↔ m = .run ∨ m = .pause := by
  cases m <;> simp [expiryMode]

theorem expireHold_held {k : Socket} {s : State} (hm : s.mode = .run ∨ s.mode = .pause)
    (hs : (s.sock k).state = .held)
    (he : (s.sock k).expiryDue = true ∨ ∃ n, (s.sock k).holdTime = some (n + 1)) :
    expireHold k s = match (s.sock k).holdReason with
      | some .shed => enterStarting k s
      | some .policy => if retryLeft k s then useRetry k s else retireHeld k s
      | some .safe | none => s :=
  if_pos ⟨hs, (canExpire_iff _).mpr he, (expiryMode_iff _).mpr hm⟩

section
variable {n : Byte} {k : Socket} {s : State}

theorem startSocketBody_cases :
    ((s.sock k).state = .idle → startSocketBody k s = replySocket k .ok (enterStarting k s))
    ∧ ((s.sock k).state ≠ .idle →
        startSocketBody k s = { s with answer := some ⟨.invalid, put1 (s.sock k).state.code⟩ }) :=
  ⟨fun h => if_pos h, fun h => if_neg h⟩

theorem stopSocketBody_live (h : s.live k = true) :
    stopSocketBody k s = replySocket k .ok (stopSocketBy k .toIdle s) := by
  have htaken : takeOrder ⟨k, .toIdle⟩ s = stopSocketBy k .toIdle s := takeOrder_live h
  rw [← htaken]
  unfold stopSocketBody
  rw [live_eq] at h
  cases hs : (s.sock k).state with
  | starting | stressing => rfl
  | empty | idle | stopping | held | retired | done =>
    simp [hs, liveIn] at h

theorem stopSocketBody_held (h : (s.sock k).state = .held) :
    stopSocketBody k s = { s with
      sockets := put s.sockets k { s.sock k with
        state := .idle, holdReason := none, holdTime := none, expiryDue := false }
      answer := some ⟨.ok, put1 SocketState.idle.code⟩ } := by
  rw [stopSocketBody, h]
  refine replySocket_state ?_ .ok
  rw [sock_modSock, if_pos rfl]

/-- A STOPPING socket stays as it is: the order to IDLE changes nothing (R8). -/
theorem stopSocketBody_stopping (h : (s.sock k).state = .stopping) :
    stopSocketBody k s = { s with answer := some ⟨.ok, put1 (s.sock k).state.code⟩ } := by
  have htaken : takeOrder ⟨k, .toIdle⟩ s = s.modSock k fun r => r :=
    takeOrder_stopping (o := ⟨k, .toIdle⟩) h
  have hsame : (s.modSock k fun r => r) = s := by
    rw [State.modSock, put_look]
  rw [stopSocketBody, h]
  dsimp only
  rw [htaken, hsame, replySocket, h]
  rfl

theorem stopSocketBody_idle (h : (s.sock k).state = .idle) :
    stopSocketBody k s = { s with answer := some ⟨.ok, put1 (s.sock k).state.code⟩ } := by
  rw [stopSocketBody, h]
  exact replySocket_state h .ok

theorem stopSocketBody_ended (h : (s.sock k).state = .retired ∨ (s.sock k).state = .done) :
    stopSocketBody k s = { s with answer := some ⟨.invalid, put1 (s.sock k).state.code⟩ } := by
  unfold stopSocketBody
  rcases h with h | h <;> rw [h] <;> exact replySocket_state h .invalid

theorem retrySocketBody_other (h : (s.sock k).state ≠ .held) :
    retrySocketBody k s = { s with answer := some ⟨.invalid, put1 (s.sock k).state.code⟩ } := if_neg h

theorem retrySocketBody_held (h : (s.sock k).state = .held) :
    retrySocketBody k s = match (s.sock k).holdReason with
      | some .policy =>
          if retryLeft k s then replySocket k .ok (useRetry k s) else replySocket k .limit s
      | some .shed => replySocket k .ok (enterStarting k s)
      | some .safe | none => replySocket k .invalid s := if_pos h

end

theorem retireHeld_eq (k : Socket) (s : State) :
    retireHeld k s = { s with sockets := put s.sockets k { s.sock k with
      state := .retired
      retireKind := (s.sock k).holdKind
      bin := match (s.sock k).holdKind with
        | some f => policyBin f s
        | none => (s.sock k).bin
      holdReason := none
      holdTime := none
      expiryDue := false } } := rfl

/-- Settles O25: each request and the expiry by the socket's state, its hold reason and its retries. -/
theorem socketsStartStopAndRetryByState : Obligations.SocketsStartStopAndRetryByState := by
  intro n k s hr hk ha he told retried
  have hleft : ∀ h : (s.sock k).retries < s.board.host.retryLimit, retryLeft k s = true :=
    fun h => decide_eq_true h
  have hspent : ∀ h : s.board.host.retryLimit ≤ (s.sock k).retries, retryLeft k s = false :=
    fun h => decide_eq_false (Nat.not_lt_of_le h)
  have hexpiry : exec (.holdExpiry k) s = .next (expireHold k s) := exec_effect (.holdExpiry k) rfl hr
  have hheld (hs : (s.sock k).state = .held) (r : Result) :
      replySocket k r s = { s with answer := told r .held } := replySocket_state hs r
  refine ⟨fun hm => ?_, fun hm => ?_, fun hm => ?_, fun hm hs hdue => ?_, fun h => ?_⟩
  · have hexec : exec (.startSocket n) s = .next (startSocketBody k s) := by
      have haccepted : (s.mode == .run) = true := by rw [hm]; rfl
      rw [exec_effect (.startSocket n) rfl hr, effectOf, startSocket, haccepted,
        socketRequest_accepted hk _ ha he]
    rw [hexec]
    obtain ⟨hidle, hother⟩ := startSocketBody_cases (k := k) (s := s)
    refine ⟨fun hs => ⟨_, congrArg _ (hidle hs), enterStarting_replied (enterStarting_spec k s)⟩,
      fun hs => congrArg _ (hother hs)⟩
  · have hexec : exec (.stopSocket n) s = .next (stopSocketBody k s) := by
      have haccepted : (s.mode == .run || s.mode == .pause) = true := by
        rcases hm with hm | hm <;> rw [hm] <;> rfl
      rw [exec_effect (.stopSocket n) rfl hr, effectOf, stopSocket, haccepted,
        socketRequest_accepted hk _ ha he]
    rw [hexec]
    refine ⟨fun hl => ?_, fun hs => congrArg _ (stopSocketBody_held hs), fun hs => ?_,
      fun hs => congrArg _ (stopSocketBody_ended hs)⟩
    · have hstops := stopSocketBy_stops k .toIdle s
      have hstate : ((stopSocketBy k .toIdle s).sock k).state = .stopping := by
        rw [hstops.1]
        rfl
      have hbody := (stopSocketBody_live hl).trans (replySocket_state hstate .ok)
      exact ⟨_, congrArg _ hbody, hstops, (stopSocketBy_frame k .toIdle s).answered _,
        stopSocketBy_orders k .toIdle s, rfl⟩
    · rcases hs with hs | hs
      · exact congrArg _ (stopSocketBody_stopping hs)
      · exact congrArg _ (stopSocketBody_idle hs)
  · have hexec : exec (.retrySocket n) s = .next (retrySocketBody k s) := by
      have haccepted : (s.mode == .run) = true := by rw [hm]; rfl
      rw [exec_effect (.retrySocket n) rfl hr, effectOf, retrySocket, haccepted,
        socketRequest_accepted hk _ ha he]
    rw [hexec]
    refine ⟨fun hs => congrArg _ (retrySocketBody_other hs), fun hs hreason => ?_,
      fun hs hreason => ?_, fun hs hreason => ?_⟩
    · rw [retrySocketBody_held hs, hreason]
      refine ⟨fun h => ?_, fun h => ?_⟩
      · exact ⟨_, congrArg _ (if_pos (hleft h)), enterStarting_replied (useRetry_enters k s)⟩
      · rw [hspent h]
        exact congrArg _ (hheld hs .limit)
    · rw [retrySocketBody_held hs, hreason]
      exact ⟨_, rfl, enterStarting_replied (enterStarting_spec k s)⟩
    · rw [retrySocketBody_held hs, ← hheld hs .invalid]
      rcases hreason with hreason | hreason <;> rw [hreason]
  · rw [hexpiry, expireHold_held hm hs hdue]
    refine ⟨fun hreason => ?_, fun hreason h => ?_, fun hreason h f hf => ?_⟩
    · rw [hreason]
      exact ⟨_, rfl, enterStarting_spec k s, enterStarting_answer k s⟩
    · rw [hreason]
      exact ⟨_, congrArg _ (if_pos (hleft h)), useRetry_enters k s, useRetry_answer k s⟩
    · have hbin : retireHeld k s = { s with sockets := put s.sockets k { s.sock k with
          state := .retired, retireKind := some f, bin := (look s.policy (kindIndex f)).bin
          holdReason := none, holdTime := none, expiryDue := false } } := by
        rw [retireHeld_eq, hf]
        rfl
      rw [hreason]
      dsimp only
      rw [hspent h, hbin]
      rfl
  · rw [hexpiry]
    refine congrArg _ ?_
    unfold expireHold
    split
    · rename_i hall
      obtain ⟨hs, hdue, hmode⟩ := hall
      rcases h with h | ⟨hrun, hpause⟩ | h | h | ⟨hnot, htime⟩
      · exact absurd hs h
      · exact ((expiryMode_iff _).mp hmode).elim (absurd · hrun) (absurd · hpause)
      · rw [h]
      · rw [h]
      · rcases (canExpire_iff _).mp hdue with hd | ⟨m, hm⟩
        · exact absurd (hd.symm.trans hnot) Bool.noConfusion
        · rcases htime with ht | ht
          · cases hm.symm.trans ht
          · cases hm.symm.trans ht
    · rfl

end Sys2Proof.Machine
end

section
/-! SUPPORT. The proofs of chapters 01 and 11: SetSocketParams; SAFE, Pause, Resume and Clear. -/

namespace Sys2Proof.Machine

/-! ### SetSocketParams (R17, R65) -/

theorem edgeOf_none {b : Byte} (h : 2 < b.toNat) : edgeOf b = none := by
  unfold edgeOf
  split <;> first | omega | rfl

theorem saturateByte_min (n : Nat) : saturateByte n = min 255 n := by
  unfold saturateByte
  split <;> omega

section
variable {v : ParamValues} {k : Socket} {s : State}

/-- A value out of range refuses the request whole. -/
theorem setParamsBody_range (h : 3 < v.upProfile.toNat ∨ 3 < v.downProfile.toNat ∨ 2 < v.edge.toNat
    ∨ 16777215 < v.stressTarget.toNat) : setParamsBody v k s = s.refuse .range := by
  unfold setParamsBody
  split
  · rename_i up down e hup hdown he
    rcases h with h | h | h | h
    · rw [profileOf_none h] at hup
      cases hup
    · rw [profileOf_none h] at hdown
      cases hdown
    · rw [edgeOf_none h] at he
      cases he
    · exact if_pos h
  · rfl

/-- The state with the values of SetSocketParams written, the code lines apart. -/
def paramsWritten (v : ParamValues) (up down : ProfileId) (e : EdgeSelection) (k : Socket) (s : State) :
    State :=
  { s with sockets := put s.sockets k { s.sock k with
    stressTarget := v.stressTarget.toNat, params := writtenParams v up down e s (s.sock k).params } }

theorem setParamsBody_accepted {up down : ProfileId} {e : EdgeSelection} (hup : up.val = v.upProfile.toNat)
    (hdown : down.val = v.downProfile.toNat) (he : e.code = v.edge.toNat)
    (ht : v.stressTarget.toNat ≤ 16777215) :
    setParamsBody v k s = paramsReply k (applySetpoint k .aux (applySetpoint k .core
      (paramsWritten v up down e k s))) := by
  have hceiling : ¬Config.targetCeiling < v.stressTarget.toNat := Nat.not_lt_of_le ht
  rw [setParamsBody, profileOf_val hup, profileOf_val hdown, edgeOf_code he]
  exact if_neg hceiling

end

theorem applySetpoint_frame (k : Socket) (r : RailKind) (s : State) :
    applySetpoint k r s = { s with rails := (applySetpoint k r s).rails } := by
  unfold applySetpoint
  split <;> rfl

/-- The code lines of one rail, where it is RISING or ON (R65). -/
theorem applySetpoint_rail (k : Socket) (r : RailKind) (s : State) (j : Socket) (q : RailKind) :
    (applySetpoint k r s).rail j q = if (j = k ∧ q = r) ∧ s.powered k r = true then
      { s.rail k r with code := s.effSetpoint k r / 5 } else s.rail j q := by
  unfold applySetpoint
  by_cases hp : s.powered k r = true
  · have hrail : (writeRail k r { s.rail k r with code := s.effSetpoint k r / 5 } s).rail j q
        = if j = k ∧ q = r then { s.rail k r with code := s.effSetpoint k r / 5 } else s.rail j q :=
      enterRail_rail k r _ s j q
    simp only [hp, if_true, and_true]
    exact hrail
  · rw [if_neg hp, if_neg fun h => hp h.2]

/-- Both code lines of a socket. -/
theorem applySetpoints_rail (k : Socket) (s : State) (r : RailKind) :
    (applySetpoint k .aux (applySetpoint k .core s)).rail k r
      = if s.powered k r = true then { s.rail k r with code := s.effSetpoint k r / 5 } else s.rail k r := by
  have hsame : (applySetpoint k .core s).rail k .aux = s.rail k .aux := by
    rw [applySetpoint_rail, if_neg (fun h => RailKind.noConfusion h.1.2)]
  have heff : (applySetpoint k .core s).effSetpoint k .aux = s.effSetpoint k .aux := by
    rw [applySetpoint_frame]
    rfl
  rw [applySetpoint_rail, powered_of_rail hsame, heff, hsame]
  cases r with
  | core => simp [applySetpoint_rail]
  | aux => simp [applySetpoint_rail]

theorem applySetpoint_others {j k : Socket} (h : j ≠ k) (r : RailKind) (s : State) :
    look (applySetpoint k r s).rails j = look s.rails j := by
  unfold applySetpoint
  split
  · exact look_put_other _ _ _ _ h
  · rfl

/-- Settles O27: a value out of range refuses; else the record is written, then the code lines, then the
reply. -/
theorem setSocketParamsWritesAdjustedValues : Obligations.SetSocketParamsWritesAdjustedValues := by
  intro n v k s hr hk ha he
  have hexec : exec (.setSocketParams n v) s = .next (setParamsBody v k s) := by
    rw [exec_effect (.setSocketParams n v) rfl hr, effectOf, setSocketParams,
      socketRequest_accepted hk _ ha he]
  refine ⟨fun h => hexec.trans (congrArg _ (setParamsBody_range h)), ?_⟩
  intro up down e hup hdown hedge ht p
  have hparams : writtenParams v up down e s (s.sock k).params = p := by
    rw [writtenParams, saturateByte_min, saturateByte_min, saturateByte_min]
    rfl
  have hbody := setParamsBody_accepted (k := k) (s := s) hup hdown hedge ht
  refine ⟨_, hexec.trans (congrArg _ hbody), ?_⟩
  have hwritten : paramsWritten v up down e k s = { s with
      sockets := put s.sockets k
        { s.sock k with stressTarget := v.stressTarget.toNat, params := p } } := by
    rw [paramsWritten, hparams]
  rw [hwritten]
  generalize hw : ({ s with
      sockets := put s.sockets k
        { s.sock k with stressTarget := v.stressTarget.toNat, params := p } } : State) = w
  have hsock : w.sock k = { s.sock k with stressTarget := v.stressTarget.toNat, params := p } := by
    rw [← hw]
    exact look_put_same _ _ _
  have hrail (r : RailKind) : w.rail k r = s.rail k r := by rw [← hw]; rfl
  have hpowered (r : RailKind) : w.powered k r = s.powered k r := powered_of_rail (hrail r)
  have heff (r : RailKind) : w.effSetpoint k r
      = clampNat (s.spMin r) (s.spMax r) (p.setpoint.get r) := by
    rw [State.effSetpoint, hsock, ← hw]
    rfl
  have hframe : applySetpoint k .aux (applySetpoint k .core w) = { w with
      rails := (applySetpoint k .aux (applySetpoint k .core w)).rails } := by
    rw [applySetpoint_frame k .aux, applySetpoint_frame k .core]
  have hrails := applySetpoints_rail k w
  have hothers : ∀ j, j ≠ k →
      look (applySetpoint k .aux (applySetpoint k .core w)).rails j = look s.rails j := by
    intro j hj
    rw [applySetpoint_others hj, applySetpoint_others hj, ← hw]
  generalize hu : applySetpoint k .aux (applySetpoint k .core w) = u at hframe hrails hothers
  have husock : u.sock k = w.sock k := by rw [hframe]; rfl
  refine ⟨?_, fun r => ?_, hothers, ?_, ?_⟩
  · show u.sockets = _
    rw [hframe, ← hw]
  · show u.rail k r = _
    rw [hrails r, hpowered, heff, hrail]
  · show some _ = some _
    rw [husock, hsock]
  · rw [paramsReply, hframe, ← hw]
    rfl

/-! ### SAFE (R159, R160) -/

theorem answerMode_eq (broadcast : Bool) {s : State} {m : Mode} (h : s.mode = m) :
    answerMode broadcast s
      = { s with answer := if broadcast = true then none else some ⟨.ok, put1 m.code⟩ } := by
  rw [← h]
  cases broadcast <;> rfl

theorem takeOven_same {b : Bool} {s : State} (h : b = s.ovenOk) : takeOven b s = { s with ovenOk := b } := by
  rw [takeOven, if_pos h, h]

theorem takeOven_low {s : State} (h : s.ovenOk = true) :
    takeOven false s = enterSafe .oven { s with ovenOk := false } := by
  rw [takeOven, if_neg (by rw [h]; decide)]
  rfl

/-- Settles O28: outside SAFE both enter it; in SAFE they change the answer and the level alone. -/
theorem quenchAndOvenEnterSafe : Obligations.QuenchAndOvenEnterSafe := by
  intro broadcast s hr answered
  have hquench : exec (.quench broadcast) s = .next (quench broadcast s) :=
    exec_effect (.quench broadcast) rfl hr
  have hoven (b : Bool) : exec (.ovenOkLevel b) s = .next (takeOven b s) :=
    exec_effect (.ovenOkLevel b) rfl hr
  rw [hquench, hoven, hoven]
  refine ⟨fun hm => ?_, fun hm => ?_, ?_, fun hm => ?_, fun hlow => ?_, fun hm hhigh => ?_⟩
  · rw [quench, enterSafe_safe hm, answerMode_eq broadcast hm]
  · have hspec := enterSafe_spec (c := .quench) hm
    exact ⟨_, hspec, congrArg _ (answerMode_eq broadcast hspec.1)⟩
  · cases hlevel : s.ovenOk with
    | true => rw [takeOven_same hlevel.symm]
    | false =>
      rw [takeOven, if_neg (by rw [hlevel]; decide)]
      rfl
  · cases hlevel : s.ovenOk with
    | true => rw [takeOven_low hlevel, enterSafe_safe (s := { s with ovenOk := false }) hm]
    | false => rw [takeOven_same hlevel.symm]
  · exact congrArg _ (if_pos hlow.symm)
  · rw [takeOven_low hhigh]
    exact ⟨_, rfl, enterSafe_spec hm⟩

/-! ### Pause, Resume and Clear (R104, R157, R162) -/

theorem refuseMode_eq (broadcast : Bool) (s : State) : refuseMode broadcast s
    = { s with answer := if broadcast = true then none else some ⟨.wrongMode, []⟩ } := by
  cases broadcast <;> rfl

theorem freeze_eq (now : Nat) (x : Timer) : freeze now x = match x with
    | .running d => .frozen (d - now)
    | .frozen r => .frozen r
    | .stopped => .stopped := by
  cases x <;> rfl

theorem thaw_eq (now : Nat) (x : Timer) : thaw now x = match x with
    | .frozen r => .running (now + r)
    | .running d => .running d
    | .stopped => .stopped := by
  cases x <;> rfl

/-- A thawed timer has no time left where it was frozen at 0 or runs past its end. -/
theorem timeOut_thaw_iff (now : Nat) (x : Timer) :
    timeOut now (thaw now x) = true ↔ x = .frozen 0 ∨ ∃ d, x = .running d ∧ d ≤ now := by
  cases x with
  | frozen r => simp [thaw, timeOut]
  | running d => simp [thaw, timeOut]
  | stopped => simp [thaw, timeOut]

/-- PAUSE becomes RUN, short of the arbiter's decision. -/
def resumed (s : State) : State := mapTimers (thaw s.now) { s with mode := .run }

theorem resumeRun_eq (s : State) : resumeRun s = resumeExpiries (timeOut s.now (thaw s.now s.timers.timer0))
    (timeOut s.now (thaw s.now s.timers.timer1)) (arbiterDecision (resumed s)) := rfl

/-- What a Resume changes: the mode, timers, slots, the bus, windows and draws. -/
def TimersOnly (s t : State) : Prop :=
  t = { s with
    slots := t.slots, bus := t.bus, storeCommand := t.storeCommand, mon := t.mon, timers := t.timers
    draws := t.draws }

theorem TimersOnly.refl (s : State) : TimersOnly s s := rfl

theorem TimersOnly.trans {s t u : State} (h : TimersOnly s t) (g : TimersOnly t u) : TimersOnly s u := by
  unfold TimersOnly at *
  rw [g, h]

theorem arbiterDecision_timers (s : State) : TimersOnly s (arbiterDecision s) := by
  unfold TimersOnly
  rw [(arbiterDecision_only s).eq]

theorem loadTimer_timers (x : TimerId) (s : State) : TimersOnly s (loadTimer x s) := by
  unfold TimersOnly loadTimer
  rw [setTimer_eq]

theorem expireTimer_timers (x : TimerId) (s : State) : TimersOnly s (expireTimer x s) := by
  unfold expireTimer
  split
  · have hslots : TimersOnly s { s with slots := tab8 fun i => expirySlot x (look s.slots i) } := rfl
    exact (hslots.trans (loadTimer_timers x _)).trans (arbiterDecision_timers _)
  · exact .refl s
  · exact .refl s

theorem resumeExpiries_timers (first second : Bool) (s : State) :
    TimersOnly s (resumeExpiries first second s) := by
  have hdraw : TimersOnly s s.draw := rfl
  unfold resumeExpiries
  split
  · exact .refl s
  · exact expireTimer_timers _ s
  · exact expireTimer_timers _ s
  · split
    · exact (hdraw.trans (expireTimer_timers _ _)).trans (expireTimer_timers _ _)
    · exact (hdraw.trans (expireTimer_timers _ _)).trans (expireTimer_timers _ _)

theorem resumeRun_timers (s : State) : TimersOnly (resumed s) (resumeRun s) :=
  (arbiterDecision_timers _).trans (resumeExpiries_timers _ _ _)

/-- Settles O30: each request by the mode; Resume by the timers that have no time left. -/
theorem pauseResumeAndClearMoveTheMode : Obligations.PauseResumeAndClearMoveTheMode := by
  intro broadcast s hr answered turnedAway frozen thawed out resumed'
  have hpause : exec (.pause broadcast) s = .next (pause broadcast s) :=
    exec_effect (.pause broadcast) rfl hr
  have hresume : exec (.resume broadcast) s = .next (resume broadcast s) :=
    exec_effect (.resume broadcast) rfl hr
  have hclear : exec .clear s = .next (clear s) := exec_effect .clear rfl hr
  have hfrozen (x : Timer) : freeze s.now x = frozen x := freeze_eq s.now x
  have hthawed : resumed s = resumed' := by
    rw [resumed, mapTimers, thaw_eq, thaw_eq] <;> rfl
  rw [Refuses, Refuses, hpause, hresume, hclear]
  refine ⟨fun hm => ?_, fun hm => ?_, fun hm => ?_, fun hm => ?_, fun hm => ?_, fun hm => ?_,
    fun hm ho => ?_, fun hm ho => ?_⟩
  · rw [pause, if_pos hm, answerMode_eq (m := .pause) broadcast rfl, mapTimers]
    dsimp only
    rw [hfrozen, hfrozen]
  · rw [pause, if_neg hm, refuseMode_eq]
  · rw [resume, if_neg hm, refuseMode_eq]
  · have hmode : (resumeRun s).mode = .run := by
      rw [resumeRun_timers s]
      rfl
    have hrun : resume broadcast s = { resumeRun s with answer := answered .run } := by
      rw [resume, if_pos hm, answerMode_eq broadcast hmode]
    have hframe := arbiterDecision_timers (resumed s)
    have houtside : (arbiterDecision (resumed s)).resetting = none := by
      rw [(arbiterDecision_only _).eq]
      exact hr
    have hdraws : (arbiterDecision (resumed s)).draws = s.draws := by
      rw [(arbiterDecision_only _).eq]
      rfl
    have hexpire (x : TimerId) {u : State} (h : u.resetting = none) :
        exec (.dispatchTimerExpiry x) u = .next (expireTimer x u) :=
      exec_effect (.dispatchTimerExpiry x) rfl h
    have hdue {x : Timer} (h : out x) : timeOut s.now (thaw s.now x) = true :=
      (timeOut_thaw_iff s.now x).mpr h
    have hleft {x : Timer} (h : ¬out x) : timeOut s.now (thaw s.now x) = false :=
      Bool.eq_false_iff.mpr fun ht => h ((timeOut_thaw_iff s.now x).mp ht)
    rw [hrun, resumeRun_eq]
    refine ⟨arbiterDecision (resumed s), ?_, fun h0 h1 => ?_, fun h0 h1 => ?_, fun h0 h1 => ?_,
      fun h0 h1 => ?_⟩
    · rw [hthawed]
      exact arbiterDecision_spec _
    · rw [hleft h0, hleft h1]
      rfl
    · rw [hdue h0, hleft h1]
      exact ⟨_, hexpire .timer0 houtside, rfl⟩
    · rw [hleft h0, hdue h1]
      exact ⟨_, hexpire .timer1 houtside, rfl⟩
    · rw [hdue h0, hdue h1]
      generalize arbiterDecision (resumed s) = u at houtside hdraws
      have hdrawn : u.draw = { u with draws := s.draws + 1 } := by rw [State.draw, hdraws]
      have hfirst (x : TimerId) : (expireTimer x u.draw).resetting = none := by
        rw [expireTimer_timers x u.draw]
        exact houtside
      have hone (x : TimerId) := hexpire x (u := u.draw) houtside
      rw [resumeExpiries, ← hdrawn]
      split
      · exact ⟨.timer0, .timer1, _, _, .inl ⟨rfl, rfl⟩, hone .timer0, hexpire .timer1 (hfirst .timer0), rfl⟩
      · exact ⟨.timer1, .timer0, _, _, .inr ⟨rfl, rfl⟩, hone .timer1, hexpire .timer0 (hfirst .timer1), rfl⟩
  · have hframe := resumeRun_timers s
    have hmode : (resumeRun s).mode = .run := by
      rw [hframe]
      rfl
    refine ⟨_, rfl, ?_⟩
    rw [resume, if_pos hm, answerMode_eq broadcast hmode, hframe]
    exact ⟨rfl, rfl, rfl, rfl, rfl, rfl, rfl, rfl⟩
  · exact congrArg _ (if_pos hm)
  · rw [clear, if_neg (not_not_intro hm), if_pos ho]
    rfl
  · rw [clear, if_neg (not_not_intro hm), if_neg (by rw [ho]; decide)]
    rfl

end Sys2Proof.Machine
end

section
/-! SUPPORT. The proofs of chapters 07 to 09 that need no run: log entries, slots, edges, alarms; and of the
clocks of 03 and 05. -/

namespace Sys2Proof.Machine

/-! ### Log entries (R141) -/

/-- What R141 asks of the newest entry and the new one, in words. -/
theorem coalesces_iff (x e : LogEntry) : coalesces x e = true ↔ x.socket = e.socket ∧ x.kind = e.kind
    ∧ x.action = .none ∧ e.action = .none ∧ x.repeats < 255 := by
  simp only [coalesces, Bool.and_eq_true, beq_iff_eq, decide_eq_true_eq, and_assoc]

/-- No newest entry takes the new one. -/
theorem storing_new {log : List LogEntry} {e : LogEntry}
    (h : ∀ older x, log = older ++ [x] → ¬coalesces x e = true) :
    storing log e = if log.length < 64 then .append else .dropped := by
  rcases storing_cases log e with ⟨-, x, hlast, hc⟩ | ⟨hs, hlen⟩ | ⟨hs, hlen⟩
  · obtain ⟨older, hlog⟩ := List.getLast?_eq_some_iff.mp hlast
    exact absurd hc (h older x hlog)
  · rw [hs, if_pos hlen]
  · rw [hs, if_neg (Nat.not_lt_of_le hlen)]

theorem storing_coalesce {older : List LogEntry} {x e : LogEntry} (h : coalesces x e = true) :
    storing (older ++ [x]) e = .coalesce := by
  unfold storing
  rw [List.getLast?_concat]
  exact if_pos h

/-- Settles O48: whether the newest entry takes the new one, then the length of the log. -/
theorem entriesCoalesceAppendOrDrop : Obligations.EntriesCoalesceAppendOrDrop := by
  intro e s merges
  have hnew (h : ∀ older x, s.log = older ++ [x] → ¬merges x) :
      storing s.log e = if s.log.length < 64 then .append else .dropped :=
    storing_new fun older x hlog hc => h older x hlog ((coalesces_iff x e).mp hc)
  refine ⟨fun older x hlog hm => ?_, fun h hlen => ?_, fun h hlen => ?_⟩
  · rw [storeEntry, hlog, storing_coalesce ((coalesces_iff x e).mpr hm), bumpNewest_append]
  · rw [storeEntry, hnew h, if_pos hlen]
  · rw [storeEntry, hnew h, if_neg (Nat.not_lt_of_le hlen)]
    rfl

/-! ### Slots (R102, R114) -/

theorem refuses_of {c : Instr} {s t : State} {r : Result} (hexec : exec c s = .next t)
    (h : t = s.refuse r) : Refuses c s r := hexec.trans (congrArg _ h)

theorem dispatchOf_none {b : Byte} (h : 2 < b.toNat) : dispatchOf b = none := by
  unfold dispatchOf
  split <;> first | omega | rfl

theorem retryOf_none {b : Byte} (h : 1 < b.toNat) : retryOf b = none := by
  unfold retryOf
  split <;> first | omega | rfl

theorem edgesChecked_eq (m : Mode) : edgesChecked m = runningMode m := by cases m <;> rfl

theorem slot_modSlot_same (s : State) (i : SlotId) (f : Slot → Slot) :
    (s.modSlot i f).slot i = f (s.slot i) := look_put_same _ _ _

section
variable {n : Byte} {v : SlotValues} {i : SlotId} {s : State}

/-- The values that checks 2 to 4 of R102 refuse at an IDLE slot. -/
theorem setSlot_range (hi : i.val = n.toNat) (hidle : (s.slot i).state = .idle)
    (h : 63 < v.pattern.toNat ∨ v.length.toNat = 0 ∨ 2 < v.dispatch.toNat ∨ 1 < v.retry.toNat
      ∨ (runningMode s.mode = true ∧ v.edgeMax.toNat < v.edgeMin.toNat)) :
    setSlot n v s = s.refuse .range := by
  rw [setSlot, slotOf_val hi]
  dsimp only
  rw [if_neg (not_not.mpr hidle)]
  by_cases hsize : 63 < v.pattern.toNat ∨ v.length.toNat = 0
  · rw [if_pos hsize]
  · rw [if_neg hsize]
    have hrest : 2 < v.dispatch.toNat ∨ 1 < v.retry.toNat
        ∨ (runningMode s.mode = true ∧ v.edgeMax.toNat < v.edgeMin.toNat) := by
      rcases h with h | h | h
      · exact absurd (.inl h) hsize
      · exact absurd (.inr h) hsize
      · exact h
    split
    · rename_i hd hr
      rcases hrest with h | h | h
      · rw [dispatchOf_none h] at hd
        cases hd
      · rw [retryOf_none h] at hr
        cases hr
      · rw [edgesChecked_eq, if_pos h]
    · rfl

theorem setSlot_accepted {d : Dispatch} {r : Retry} (hi : i.val = n.toNat)
    (hidle : (s.slot i).state = .idle) (hp : v.pattern.toNat ≤ 63) (hl : 0 < v.length.toNat)
    (hedges : runningMode s.mode = true → v.edgeMin.toNat ≤ v.edgeMax.toNat)
    (hd : d.code = v.dispatch.toNat) (hr : r.code = v.retry.toNat) :
    setSlot n v s = (s.modSlot i fun _ => writtenSlot v d r).reply .ok (slotBytes i (writtenSlot v d r)) := by
  have hsize : ¬(63 < v.pattern.toNat ∨ v.length.toNat = 0) := by omega
  have hchecked : ¬(edgesChecked s.mode = true ∧ v.edgeMax.toNat < v.edgeMin.toNat) := by
    rw [edgesChecked_eq]
    exact fun h => absurd (hedges h.1) (Nat.not_le_of_lt h.2)
  rw [setSlot, slotOf_val hi, dispatchOf_code hd, retryOf_code hr]
  dsimp only
  rw [if_neg (not_not.mpr hidle), if_neg hsize, if_neg hchecked, slot_modSlot_same]

theorem abortSlot_val (hi : i.val = n.toNat) : abortSlot n s = { s with
    slots := put s.slots i (abortRecord (s.slot i))
    answer := some ⟨.ok, put1 (abortRecord (s.slot i)).state.code
      ++ putFlag (abortRecord (s.slot i)).abortMark⟩ } := by
  rw [abortSlot, slotOf_val hi]
  dsimp only
  rw [slot_modSlot_same]
  rfl

end

/-- Settles O40: the checks of R102 in order, then the record that is written. -/
theorem setSlotWritesAnIdleSlot : Obligations.SetSlotWritesAnIdleSlot := by
  intro n v s hr
  have hexec : exec (.setSlot n v) s = .next (setSlot n v s) := exec_effect (.setSlot n v) rfl hr
  refine ⟨fun hn => refuses_of hexec ?_, fun i hi => ⟨fun hbusy => refuses_of hexec ?_,
    fun hidle hbad => refuses_of hexec (setSlot_range hi hidle hbad),
    fun hidle hp hl hedges d r hd hretry => ?_⟩⟩
  · rw [setSlot, slotOf_none hn]
  · rw [setSlot, slotOf_val hi]
    exact if_pos hbusy
  · exact hexec.trans (congrArg _ (setSlot_accepted hi hidle hp hl hedges hd hretry))

theorem abortRecord_of_active {x : Slot} (h : x.state = .active) :
    abortRecord x = { x with abortMark := true } := by
  cases x
  dsimp only at h
  subst h
  rfl

/-- Settles O42: the record that AbortSlot leaves, by the slot's state. -/
theorem abortSlotCancelsADispatch : Obligations.AbortSlotCancelsADispatch := by
  intro n s hr
  have hexec : exec (.abortSlot n) s = .next (abortSlot n s) := exec_effect (.abortSlot n) rfl hr
  refine ⟨fun hn => refuses_of hexec ?_, fun i hi => ?_⟩
  · rw [abortSlot, slotOf_none hn]
  · intro after
    rw [hexec, abortSlot_val hi]
    refine ⟨fun h => ?_, fun h => ?_, fun h => ?_⟩
    · have habort : abortRecord (s.slot i) = s.slot i := by rw [abortRecord, h]
      rw [habort]
    · have habort : abortRecord (s.slot i)
          = { s.slot i with state := .idle, last := .aborted, abortMark := true } := by rw [abortRecord, h]
      rw [habort]
    · rw [abortRecord_of_active h]

/-! ### Dispatch timers (R105, R106) -/

theorem intervalOk_iff (n : Nat) : intervalOk n = true ↔ n = 0 ∨ (50 ≤ n ∧ n ≤ 600000) := by
  simp only [intervalOk, Bool.or_eq_true, Bool.and_eq_true, beq_iff_eq, decide_eq_true_eq]

theorem putTimer_length (x : TimerId) (s : State) : (putTimer x s).length = 9 := rfl

/-- A timer's expiry at one slot, by R106's two questions. -/
theorem expirySlot_eq (t : TimerId) (x : Slot) :
    expirySlot t x = if x.dispatch ≠ timerDispatch t then x
      else if x.state = .idle then { x with resends := 0, abortMark := false, state := .pending }
      else { x with missed := satAdd 65535 x.missed 1 } := by
  unfold expirySlot
  by_cases hd : x.dispatch = timerDispatch t
  · rw [if_pos hd, if_neg (not_not.mpr hd)]
    cases hs : x.state with
    | idle => exact (if_pos rfl).symm
    | pending => exact (if_neg nofun).symm
    | active => exact (if_neg nofun).symm
  · rw [if_neg hd, if_pos hd]

theorem expireTimer_running {x : TimerId} {s : State} {d : Nat} (h : timerOf x s = .running d) :
    expireTimer x s
      = arbiterDecision (loadTimer x { s with slots := tab8 fun i => expirySlot x (s.slot i) }) := by
  rw [expireTimer, h]
  rfl

theorem expireTimer_still {x : TimerId} {s : State} (h : ∀ d, timerOf x s ≠ .running d) :
    expireTimer x s = s := by
  unfold expireTimer
  split
  · rename_i d hd
    exact absurd hd (h d)
  · rfl
  · rfl

/-- Settles O43: both intervals or none; a RUNNING timer's slots and its reload, then the arbiter. -/
theorem dispatchTimersExpireAndReload : Obligations.DispatchTimersExpireAndReload := by
  intro interval0 interval1 x s hr sound next dispatched
  have hset : exec (.setTimers interval0 interval1) s = .next (setTimers interval0 interval1 s) :=
    exec_effect (.setTimers interval0 interval1) rfl hr
  have hexpire : exec (.dispatchTimerExpiry x) s = .next (expireTimer x s) :=
    exec_effect (.dispatchTimerExpiry x) rfl hr
  rw [Refuses, hset, hexpire]
  refine ⟨fun hbad => ?_, fun h0 h1 => ?_, fun hstill => ?_, fun d hd => ?_⟩
  · have hcheck : ¬(intervalOk interval0.toNat = true ∧ intervalOk interval1.toNat = true) := by
      rw [intervalOk_iff, intervalOk_iff]
      exact hbad
    rw [setTimers, if_neg hcheck]
    rfl
  · have hcheck : intervalOk interval0.toNat = true ∧ intervalOk interval1.toNat = true := by
      rw [intervalOk_iff, intervalOk_iff]
      exact ⟨h0, h1⟩
    rw [setTimers, if_pos hcheck]
    refine ⟨_, _, rfl, rfl, ?_, rfl⟩
    rw [List.length_append, putTimer_length, putTimer_length]
  · rw [expireTimer_still hstill]
  · have hslots : (tab8 fun i => expirySlot x (s.slot i)) = dispatched.slots :=
      congrArg tab8 (funext fun i => expirySlot_eq x (s.slot i))
    have hloaded : loadTimer x { s with slots := tab8 fun i => expirySlot x (s.slot i) } = dispatched := by
      rw [hslots, loadTimer, setTimer_eq]
      cases x <;> rfl
    rw [expireTimer_running hd, hloaded]
    refine ⟨_, rfl, arbiterDecision_spec dispatched, fun h => ?_⟩
    exact (arbiterDecision_spec dispatched).1 (h.symm.imp_left id)

/-! ### Edges and windows (R120, R126) -/

theorem watched_iff (k : Socket) (s : State) :
    watched k s = true ↔ ¬(s.board.attach ≠ .attached ∨ inSet s.brd.population k = false) := by
  unfold watched State.populated
  rw [Bool.and_eq_true, beq_iff_eq, not_or, not_not, Bool.not_eq_false]

section
variable {k : Socket} {lvl : LineLevel} {s : State}

theorem takeMonitor_unused (h : ¬watched k s = true ∨ (look s.mon k).level = some lvl) :
    takeMonitor k lvl s = s := by
  refine if_neg fun hw => ?_
  rcases h with h | h
  · exact h hw.1
  · exact hw.2 h

theorem takeMonitor_taken (hw : watched k s = true) (h : (look s.mon k).level ≠ some lvl) :
    takeMonitor k lvl s = { s with mon := put s.mon k { look s.mon k with
      level := some lvl
      window := if (look s.mon k).level.isSome ∧ counts (s.sock k).params.edge lvl = true then
          (look s.mon k).window.map fun w => { w with edges := satAdd 65535 w.edges 1 }
        else (look s.mon k).window } } := if_pos ⟨hw, h⟩

theorem closeWindow_none (h : (look s.mon k).window = none) : closeWindow k s = s := by
  unfold closeWindow windowOf
  rw [h]

theorem closeWindow_pass {w : Window} (h : (look s.mon k).window = some w) (hj : judge w = .pass) :
    closeWindow k s = { s with
      mon := put s.mon k { look s.mon k with window := none }
      sockets := put s.sockets k { s.sock k with lastPass := some s.runClock } } := by
  unfold closeWindow windowOf
  rw [h]
  dsimp only
  rw [hj]
  rfl

theorem closeWindow_fail {w : Window} {d : Direction} (h : (look s.mon k).window = some w)
    (hj : judge w = .fail d) :
    closeWindow k s = takeFail ⟨k, .activity, BitVec.ofNat 16 w.edges, some d⟩
      { s with mon := put s.mon k { look s.mon k with window := none } } := by
  unfold closeWindow windowOf
  rw [h]
  dsimp only
  rw [hj]
  rfl

end

/-- Settles O45: the level taken, by what was held before; the window by its edge count. -/
theorem edgesAreCountedAndWindowsJudged : Obligations.EdgesAreCountedAndWindowsJudged := by
  intro k lvl s hr m counted unused
  have hedge : exec (.monitorEdge k lvl) s = .next (takeMonitor k lvl s) :=
    exec_effect (.monitorEdge k lvl) rfl hr
  have hclose : exec (.windowClose k) s = .next (closeWindow k s) := exec_effect (.windowClose k) rfl hr
  have hcounts : counts (s.sock k).params.edge lvl = counted := by
    show _ = (match (s.sock k).params.edge, lvl with
      | .rise, .high | .fall, .low | .both, _ => true
      | .rise, .low | .fall, .high => false)
    cases (s.sock k).params.edge <;> cases lvl <;> rfl
  refine ⟨fun h => ?_, fun hu hnone => ?_, fun hu old hold hne => ?_, fun hw => ?_,
    fun w hw => ⟨fun hlow => ?_, fun hmin hmax => ?_, fun hmin hmax => ?_⟩⟩
  · rw [hedge, takeMonitor_unused (h.imp_left fun hu hw => (watched_iff k s).mp hw hu)]
  · have hlevel : (look s.mon k).level ≠ some lvl := hnone ▸ nofun
    rw [hedge, takeMonitor_taken ((watched_iff k s).mpr hu) hlevel, show (look s.mon k).level = none from hnone,
      if_neg (fun h => Bool.noConfusion h.1)]
  · have hlevel : (look s.mon k).level ≠ some lvl := fun h => hne (Option.some.inj (hold.symm.trans h))
    rw [hedge, takeMonitor_taken ((watched_iff k s).mpr hu) hlevel,
      show (look s.mon k).level = some old from hold, hcounts]
    cases counted <;> rfl
  · rw [hclose, closeWindow_none hw]
  · exact hclose.trans (congrArg _ (closeWindow_fail hw (if_pos hlow)))
  · have hj : judge w = .fail .high := by rw [judge, if_neg (Nat.not_lt_of_le hmin), if_pos hmax]
    exact hclose.trans (congrArg _ (closeWindow_fail hw hj))
  · have hj : judge w = .pass := by
      rw [judge, if_neg (Nat.not_lt_of_le hmin), if_neg (Nat.not_lt_of_le hmax)]
    exact hclose.trans (congrArg _ (closeWindow_pass hw hj))

/-! ### Alarms (R128 to R130) -/

section
variable {k : Socket} {lvl : LineLevel} {s : State}

theorem takeAlarm_still (hw : watched k s = true)
    (h : ¬((look s.mon k).alarm = some .inactive ∧ alarmLevel k lvl s = .active
      ∧ (s.sock k).params.latchEnable = true)) :
    takeAlarm k lvl s = s.modMon k fun m => { m with alarm := some (alarmLevel k lvl s) } := by
  rw [takeAlarm, if_pos hw]
  dsimp only
  split
  · rename_i hedge
    exact if_neg fun hl => h ⟨hedge.1, hedge.2, hl⟩
  · rfl

/-- The state with the new level taken and the latch set. -/
def alarmLatched (k : Socket) (a : AlarmLevel) (s : State) : State :=
  { s with mon := put s.mon k { look s.mon k with alarm := some a, latch := true } }

theorem takeAlarm_edge (hw : watched k s = true) (hm : (look s.mon k).alarm = some .inactive)
    (hnew : alarmLevel k lvl s = .active) (hl : (s.sock k).params.latchEnable = true) :
    takeAlarm k lvl s = if (s.sock k).params.reportEnable = true ∧ s.live k = true then
        takeFail ⟨k, .dutAlarm, 0#16, none⟩ (alarmLatched k (alarmLevel k lvl s) s)
      else alarmLatched k (alarmLevel k lvl s) s := by
  have hlatched : ((s.modMon k fun m => { m with alarm := some (alarmLevel k lvl s) }).modMon k
      fun m => { m with latch := true }) = alarmLatched k (alarmLevel k lvl s) s := by
    simp only [State.modMon, alarmLatched, put_put, look_put_same]
  rw [takeAlarm, if_pos hw]
  dsimp only
  rw [if_pos ⟨hm, hnew⟩, alarmEdge, hlatched]
  exact (if_pos hl).trans (if_congr Bool.and_eq_true_iff rfl rfl)

end

/-- The sets that SetAlarmEnables sends are the ones it received. -/
theorem setOf_inSet (m : Half) : (setOf fun k => inSet m k) = m := by
  refine BitVec.eq_of_getLsbD_eq fun i hi => ?_
  exact inSet_setOf (fun k => inSet m k) ⟨i, hi⟩

/-- Settles O46: the alarm level by the edge and the enables; the requests by the attach state. -/
theorem alarmsAreLatchedReportedAndRead : Obligations.AlarmsAreLatchedReportedAndRead := by
  intro k lvl latch report clears s hr m p new unused edge
  have htake : exec (.alarmLevelTaken k lvl) s = .next (takeAlarm k lvl s) :=
    exec_effect (.alarmLevelTaken k lvl) rfl hr
  have hset : exec (.setAlarmEnables latch report) s = .next (setAlarmEnables latch report s) :=
    exec_effect (.setAlarmEnables latch report) rfl hr
  have hread : exec (.readAlarms clears) s = .next (readAlarms clears s) :=
    exec_effect (.readAlarms clears) rfl hr
  have hnew : alarmLevel k lvl s = new := by
    show _ = if inSet s.brd.alarmHigh k = decide (lvl = .high) then AlarmLevel.active else .inactive
    cases lvl <;> rfl
  refine ⟨fun hu => ?_, fun hu hno => ?_, fun hu hedge => ?_, fun ha => ?_, fun ha => ?_, ?_⟩
  · rw [htake, takeAlarm, if_neg fun hw => (watched_iff k s).mp hw hu]
  · rw [htake, takeAlarm_still ((watched_iff k s).mpr hu) (by rw [hnew]; exact hno), hnew]
    rfl
  · obtain ⟨hm, hactive, hl⟩ := hedge
    refine htake.trans (congrArg _ ?_)
    rw [takeAlarm_edge ((watched_iff k s).mpr hu) hm (hnew.trans hactive) hl, hnew]
    rfl
  · rw [Refuses, hset, setAlarmEnables, if_pos ha]
    rfl
  · rw [hset, setAlarmEnables, if_neg ha]
    simp only [State.sock, look_tab16, setOf_inSet]
    rfl
  · rw [hread, readAlarms]
    simp only [beq_eq_decide]
    rfl

/-! ### The clocks (R36, R69) -/

/-- Settles O37: the boundary by the attach state and the round; the carrier's two events. -/
theorem roundAndCarrierClocksRun : Obligations.RoundAndCarrierClocksRun := by
  intro k s hr first started
  have hround : exec .roundBoundary s = .next (takeBoundary s) := exec_effect .roundBoundary rfl hr
  have hcarrier : exec .carrierPeriodStart s = .next (startPeriod s) :=
    exec_effect .carrierPeriodStart rfl hr
  have hend : exec (.heaterOnTimeEnd k) s = .next (endOnTime k s) := exec_effect (.heaterOnTimeEnd k) rfl hr
  have hfirst : channelFrom 0 s = first := rfl
  have hselect : started.senseSelect = some first := by
    have hnone : started.resetting.isNone = true := by rw [show started.resetting = none from hr]; rfl
    exact if_pos hnone
  refine ⟨fun ha hn => ?_, hselect, fun h => ?_, hcarrier, fun d hd => ?_, fun hd => ?_⟩
  · rw [hround, takeBoundary, hfirst]
    exact congrArg _ (if_pos ⟨ha, hn⟩)
  · rw [hround, takeBoundary]
    refine congrArg _ (if_neg fun hc => ?_)
    rcases h with h | h
    · exact h hc.1
    · exact h hc.2
  · rw [hend, endOnTime, hd]
  · rw [hend, endOnTime, hd]

end Sys2Proof.Machine
end

section
/-! SUPPORT. The proofs of chapter 07: SendSlot with the arbiter's decision, and the end of a burst. -/

namespace Sys2Proof.Machine

/-! ### Decisions that are simple -/

/-- A start touches the record of its own slot alone. -/
theorem startSlot_slot_other {i j : SlotId} (h : j ≠ i) (s : State) :
    (startSlot i s).slot j = s.slot j := by
  by_cases hr : ∃ k, burstReaches s i k = true
  · rw [startSlot_start hr]
    exact look_put_other _ _ _ _ h
  · have hr' : ∀ k, burstReaches s i k = false := fun k => Bool.eq_false_iff.mpr fun hk => hr ⟨k, hk⟩
    rw [startSlot_skip hr']
    exact look_put_other _ _ _ _ h

/-- A decision with one slot PENDING starts that slot. -/
theorem arbiterDecision_one {i : SlotId} {s : State} (hm : s.mode = .run) (hb : s.bus = none)
    (hi : (s.slot i).state = .pending) (ho : ∀ j, j ≠ i → (s.slot j).state ≠ .pending) :
    arbiterDecision s = startSlot i s :=
  (if_pos hm).trans (arbitrate_one hb hi ho
    (fun j hj => by rw [startSlot_slot_other hj]; exact ho j hj) (mem_allSlots i) (by decide))

/-- A decision outside RUN, or with no slot PENDING, changes nothing. -/
theorem arbiterDecision_still {s : State} (h : (∀ j, (s.slot j).state ≠ .pending) ∨ s.mode ≠ .run) :
    arbiterDecision s = s := by
  unfold arbiterDecision
  split
  · rename_i hm
    exact arbitrate_none (.inr fun j _ => h.resolve_right (not_not.mpr hm) j)
  · rfl

/-! ### SendSlot (R103, R107 to R110) -/

section
variable {n : Byte} {i : SlotId} {s : State}

/-- The state of SendSlot before the arbiter's decision. -/
def slotSent (i : SlotId) (s : State) : State :=
  { s with slots := put s.slots i (dispatchRecord (s.slot i)), answer := some ⟨.ok, [1#8]⟩ }

theorem sendSlot_accepted (hi : i.val = n.toNat) (hm : s.mode = .run) (hidle : (s.slot i).state = .idle) :
    sendSlot n s = arbiterDecision (slotSent i s) := by
  rw [sendSlot, slotOf_val hi]
  dsimp only
  rw [if_neg (not_not.mpr hm), if_neg (not_not.mpr hidle)]
  rfl

theorem slotSent_slot (j : SlotId) :
    (slotSent i s).slot j = if j = i then dispatchRecord (s.slot i) else s.slot j := by
  simp only [State.slot, slotSent, look_put]

theorem slotSent_reaches : burstReaches (slotSent i s) i = burstReaches s i := by
  funext k
  unfold burstReaches
  rw [slotSent_slot, if_pos rfl]
  rfl

/-- The slot that is sent is the only one PENDING. -/
theorem slotSent_starts (hm : s.mode = .run) (hb : s.bus = none) (ho : ∀ j, (s.slot j).state ≠ .pending) :
    arbiterDecision (slotSent i s) = startSlot i (slotSent i s) := by
  refine arbiterDecision_one hm hb ?_ fun j hj => ?_
  · rw [slotSent_slot, if_pos rfl]
    rfl
  · rw [slotSent_slot, if_neg hj]
    exact ho j

theorem slotSent_skip (h : ∀ k, burstReaches s i k = false) :
    startSlot i (slotSent i s) = { s with
      slots := put s.slots i { dispatchRecord (s.slot i) with
        state := .idle, skipped := satAdd 65535 (s.slot i).skipped 1 }
      answer := some ⟨.ok, [1#8]⟩ } := by
  rw [startSlot_skip (by rw [slotSent_reaches]; exact h), slotSent_slot, if_pos rfl]
  unfold slotSent
  dsimp only
  rw [put_put]
  rfl

theorem slotSent_start (h : ∃ k, burstReaches s i k = true) :
    startSlot i (slotSent i s) = { s with
      slots := put s.slots i { dispatchRecord (s.slot i) with
        state := .active, sent := satAdd 65535 (s.slot i).sent 1 }
      bus := some ⟨i, setOf (burstReaches s i),
        s.now + ((s.slot i).length * s.brd.vectorPeriod + 999) / 1000⟩
      storeCommand := some (.play (s.slot i).pattern (s.slot i).length)
      mon := tab16 fun k => if burstReaches s i k = true then
          { look s.mon k with window := match (look s.mon k).window with
            | none => some ⟨0, 0, 0, 0, some ⟨i, (s.slot i).edgeMin, (s.slot i).edgeMax⟩,
                s.now + ((s.slot i).length * s.brd.vectorPeriod + 999) / 1000 + 1000 * s.brd.latency⟩
            | some w => some { w with
                waiting := some ⟨i, (s.slot i).edgeMin, (s.slot i).edgeMax⟩
                closeAt := s.now + ((s.slot i).length * s.brd.vectorPeriod + 999) / 1000
                  + 1000 * s.brd.latency } }
        else look s.mon k
      answer := some ⟨.ok, [1#8]⟩ } := by
  rw [startSlot_start (by rw [slotSent_reaches]; exact h), slotSent_reaches, slotSent_slot, if_pos rfl]
  unfold slotSent
  dsimp only
  rw [put_put]
  rfl

end

/-- Settles O41: the checks, then the decision by the bus and by the sockets that the slot reaches. -/
theorem sendSlotDispatchesAndTheArbiterStarts : Obligations.SendSlotDispatchesAndTheArbiterStarts := by
  intro n s hr
  have hexec : exec (.sendSlot n) s = .next (sendSlot n s) := exec_effect (.sendSlot n) rfl hr
  refine ⟨fun hn => refuses_of hexec ?_, fun i hi => ?_⟩
  · rw [sendSlot, slotOf_none hn]
  intro x reached micros closeAt note told
  have hsent (hm : s.mode = .run) (hidle : (s.slot i).state = .idle) :
      exec (.sendSlot n) s = .next (arbiterDecision (slotSent i s)) :=
    hexec.trans (congrArg _ (sendSlot_accepted hi hm hidle))
  refine ⟨fun hm => refuses_of hexec ?_, fun hm hbusy => refuses_of hexec ?_, fun hm hidle hb => ?_,
    fun hm hidle => ?_, fun hm hidle hb ho => ⟨fun hnone => ?_, fun hsome => ?_⟩⟩
  · rw [sendSlot, slotOf_val hi]
    exact if_pos hm
  · rw [sendSlot, slotOf_val hi]
    exact (if_neg (not_not.mpr hm)).trans (if_pos hbusy)
  · exact (hsent hm hidle).trans (congrArg _ ((arbiterDecision_spec (slotSent i s)).1 (.inr hb)))
  · exact ⟨_, hsent hm hidle, arbiterDecision_spec (slotSent i s)⟩
  · exact (hsent hm hidle).trans (congrArg _ ((slotSent_starts hm hb ho).trans (slotSent_skip hnone)))
  · exact (hsent hm hidle).trans (congrArg _ ((slotSent_starts hm hb ho).trans (slotSent_start hsome)))

/-! ### The end of a burst (R111, R112) -/

/-- The window of a delivered burst's socket (R123). -/
def confirmedWindow (w : Window) : Window :=
  match w.waiting with
  | some c => { w with
      confirmedMin := satAdd 65535 w.confirmedMin c.minimum
      confirmedMax := satAdd 65535 w.confirmedMax c.maximum
      confirmed := satAdd 65535 w.confirmed 1
      waiting := none }
  | none => w

/-- The window of a failed burst's socket (R124). -/
def withdrawnWindow (w : Window) : Option Window :=
  if w.confirmed = 0 then none else some { w with waiting := none }

/-- The state after the burst on the bus, with a new record of its slot and new windows of its sockets. -/
def burstOver (b : Burst) (y : Slot) (f : Window → Option Window) (s : State) : State :=
  { s with
    bus := none
    slots := put s.slots b.slot y
    mon := tab16 fun k => if inSet b.mask k = true then
        { look s.mon k with window := (look s.mon k).window.bind f } else look s.mon k }

section
variable {b : Burst} {s : State}

theorem endBurst_delivered (h : s.bus = some b) :
    endBurst true s = arbiterDecision (burstOver b
      { s.slot b.slot with last := .delivered, state := .idle } (fun w => some (confirmedWindow w)) s) := by
  have hmon := forSet_mon b.mask (fun _ m => { m with
    window := m.window.bind fun w => some (confirmedWindow w) }) confirmWindow confirmWindow_eq s
  rw [endBurst, h]
  dsimp only
  rw [judgeBurst, if_pos rfl, hmon]
  rfl

theorem endBurst_error (h : s.bus = some b) :
    endBurst false s = arbiterDecision (burstOver b (errorRecord s.mode (s.slot b.slot)) withdrawnWindow s) := by
  have hmon := forSet_mon b.mask (fun _ m => { m with window := m.window.bind withdrawnWindow })
    withdrawWindow withdrawWindow_eq s
  rw [endBurst, h]
  dsimp only
  rw [judgeBurst, if_neg Bool.false_ne_true, hmon]
  rfl

/-- With the burst's slot closed and no other PENDING, or outside RUN, the decision does nothing. -/
theorem burstOver_still {y : Slot} {f : Window → Option Window} (hy : y.state = .idle)
    (h : (∀ j, j ≠ b.slot → (s.slot j).state ≠ .pending) ∨ s.mode ≠ .run) :
    arbiterDecision (burstOver b y f s) = burstOver b y f s := by
  refine arbiterDecision_still (h.imp_left fun ho j => ?_)
  have hslot : (burstOver b y f s).slot j = if j = b.slot then y else s.slot j := look_put _ _ _ _
  rw [hslot]
  split
  · rw [hy]
    exact nofun
  · rename_i hj
    exact ho j hj

end

theorem resends_iff (x : Slot) (m : Mode) : resends x m = true ↔ x.retry = .resend ∧ x.resends < 3
    ∧ x.abortMark = false ∧ (m = .run ∨ m = .pause) := by
  simp only [resends, Bool.and_eq_true, Bool.or_eq_true, beq_iff_eq, decide_eq_true_eq,
    Bool.not_eq_true', and_assoc]

theorem errorRecord_again {x : Slot} {m : Mode} (h : resends x m = true) :
    errorRecord m x = { x with
      errors := satAdd 65535 x.errors 1, resends := x.resends + 1, state := .pending } := if_pos h

theorem errorRecord_final {x : Slot} {m : Mode} (h : ¬resends x m = true) :
    errorRecord m x = { x with errors := satAdd 65535 x.errors 1, last := .failed, state := .idle } :=
  if_neg h

/-- Settles O44: what the burst's end leaves of its slot and its windows, then the arbiter's decision. -/
theorem burstEndsConfirmOrWithdraw : Obligations.BurstEndsConfirmOrWithdraw := by
  intro b s hr hbus x wrong confirmed withdrawn monAfter alone ended delivered closed resent final again
  have hexec (d : Bool) : exec (.burstEnd d) s = .next (endBurst d s) := exec_effect (.burstEnd d) rfl hr
  have hconfirmed : confirmedWindow = confirmed := by
    funext w
    show _ = (match w.waiting with
      | some c => ({ w with
          confirmedMin := satAdd 65535 w.confirmedMin c.minimum
          confirmedMax := satAdd 65535 w.confirmedMax c.maximum
          confirmed := satAdd 65535 w.confirmed 1
          waiting := none } : Window)
      | none => w)
    unfold confirmedWindow
    cases w.waiting <;> rfl
  have hok := (hexec true).trans (congrArg _ (endBurst_delivered hbus))
  rw [hconfirmed] at hok
  have herror := (hexec false).trans (congrArg _ (endBurst_error hbus))
  have hagain (ha : again) (hm : s.mode = .run ∨ s.mode = .pause) :
      exec (.burstEnd false) s = .next (arbiterDecision resent) := by
    rw [errorRecord_again ((resends_iff _ _).mpr ⟨ha.1, ha.2.1, ha.2.2, hm⟩)] at herror
    exact herror
  refine ⟨⟨_, hok, arbiterDecision_spec _, burstOver_still rfl⟩, fun hfinal => ?_, fun ha hm => ?_,
    fun ha hm => ⟨_, hagain ha (.inl hm), arbiterDecision_spec _⟩, fun d => ?_⟩
  · have hno : ¬resends (s.slot b.slot) s.mode = true := by
      rw [resends_iff]
      rintro ⟨hretry, hcount, hmark, hm⟩
      rcases hfinal with h | h | h | h
      · exact h hretry
      · exact absurd hcount (Nat.not_lt_of_le h)
      · exact Bool.noConfusion (h.symm.trans hmark)
      · exact hm.elim h.1 h.2
    rw [errorRecord_final hno] at herror
    exact ⟨_, herror, arbiterDecision_spec _, burstOver_still rfl⟩
  · have hstill : arbiterDecision resent = resent := by
      refine arbiterDecision_still (.inr ?_)
      show s.mode ≠ .run
      rw [hm]
      exact nofun
    exact (hagain ha (.inr hm)).trans (congrArg _ hstill)
  · exact exec_effect (.burstEnd d) rfl hr

end Sys2Proof.Machine
end

section
/-! SUPPORT. The proofs of chapter 06: the end of a round at a BULK_V arrival, and the overload check. -/

namespace Sys2Proof.Machine

/-! ### What a round end leaves -/

/-- The state of a round end before the grant decision and a stop order: the allotment and the overload
counter, with `d` free values drawn and the orders `o` in flight. -/
def roundCounted (d : Nat) (o : List StopOrder) (s : State) : State :=
  { allot s with
    supply := { (allot s).supply with overload := (overloadCheck (allot s)).1 }
    draws := d
    orders := o }

theorem issueOrder_only {x y : State} (h : RailsOnly x y) (o : StopOrder) :
    SocketsOnly (x.issueOrder o) (y.issueOrder o) := by
  unfold State.issueOrder
  rw [h.orders]
  exact congrArg (fun t : State => { t with orders := x.orders ++ [o] }) h.toSockets.eq

/-- After the allotment a round end acts on the rails and on a socket that it sheds. -/
theorem roundEnd_only (s : State) : ∃ d o, SocketsOnly (roundCounted d o s) (roundEnd s) := by
  unfold roundEnd
  dsimp only
  split
  · exact ⟨_, _, (grantDecision_only _).toSockets⟩
  · rename_i k _
    split
    · exact ⟨s.draws + 1, s.orders, (takeOrder_only _ _).trans (grantDecision_only _).toSockets⟩
    · exact ⟨s.draws + 1, s.orders ++ [(⟨k, .toShedHold⟩ : StopOrder)],
        issueOrder_only (grantDecision_only (roundCounted (s.draws + 1) s.orders s)) ⟨k, .toShedHold⟩⟩

section
variable (s : State)

theorem roundEnd_mode : (roundEnd s).mode = s.mode := by
  obtain ⟨d, o, h⟩ := roundEnd_only s
  exact h.mode

theorem roundEnd_safeCause : (roundEnd s).safeCause = s.safeCause := by
  obtain ⟨d, o, h⟩ := roundEnd_only s
  exact (congrArg State.safeCause h.eq :)

theorem roundEnd_bulkLow : (roundEnd s).bulkLow = s.bulkLow := by
  obtain ⟨d, o, h⟩ := roundEnd_only s
  exact (congrArg State.bulkLow h.eq :)

theorem roundEnd_allotment : (roundEnd s).supply.railAllotment = (allot s).supply.railAllotment := by
  obtain ⟨d, o, h⟩ := roundEnd_only s
  exact (congrArg (fun t : State => t.supply.railAllotment) h.eq :)

theorem roundEnd_allowance : (roundEnd s).supply.allowance
    = some (((roundEnd s).bulkLimit : Int) - (roundEnd s).supply.railAllotment) := by
  obtain ⟨d, o, h⟩ := roundEnd_only s
  have hallowance : (roundEnd s).supply.allowance = (allot s).supply.allowance :=
    (congrArg (fun t : State => t.supply.allowance) h.eq :)
  have hlimit : (roundEnd s).bulkLimit = s.bulkLimit := by
    unfold State.bulkLimit State.brd
    rw [h.board]
    rfl
  rw [hallowance, roundEnd_allotment, hlimit]
  rfl

theorem roundEnd_overload : (roundEnd s).supply.overload = (overloadCheck (allot s)).1 := by
  obtain ⟨d, o, h⟩ := roundEnd_only s
  exact (congrArg (fun t : State => t.supply.overload) h.eq :)

end

/-! ### A BULK_V arrival (R161) -/

/-- The record of a BULK_V code, the round it ends and the counter of low samples. -/
def bulkArrived (code : BitVec 12) (number low : Nat) (s : State) : State :=
  { s with
    bulkLow := low
    scan := { s.scan with
      round := none
      bulk := some ⟨some ((code.toNat * 16 : Nat) : Int), .valid, code.toNat, number⟩ } }

section
variable {code : BitVec 12} {number at_ : Nat} {s : State}

theorem channelArrival_bulk (hr : s.resetting = none) (h : s.scan.round = some ⟨number, .bulk, at_⟩) :
    exec (.channelArrival code) s
      = .next (roundEnd (compareBulk (code.toNat * 16) (bulkArrived code number s.bulkLow s))) := by
  have hexec : exec (.channelArrival code) s = .next (takeCode code.toNat s) :=
    exec_effect (.channelArrival code) rfl hr
  rw [hexec, takeCode, h]
  rfl

theorem compareBulk_enough (h : s.brd.bulkMinimum ≤ code.toNat * 16) :
    compareBulk (code.toNat * 16) (bulkArrived code number s.bulkLow s) = bulkArrived code number 0 s :=
  if_neg (Nat.not_lt_of_le h)

theorem compareBulk_first (h : code.toNat * 16 < s.brd.bulkMinimum) (h0 : s.bulkLow = 0) :
    compareBulk (code.toNat * 16) (bulkArrived code number s.bulkLow s) = bulkArrived code number 1 s :=
  (if_pos h).trans (if_pos h0)

theorem compareBulk_second (h : code.toNat * 16 < s.brd.bulkMinimum) (h0 : s.bulkLow ≠ 0) :
    compareBulk (code.toNat * 16) (bulkArrived code number s.bulkLow s)
      = enterSafe .bulkLow (bulkArrived code number 0 s) := (if_pos h).trans (if_neg h0)

end

/-! ### A round end after an entry to SAFE -/

/-- The record after an entry to SAFE is not live. -/
theorem safeResolved_rests (bin hold : Nat) (r : SocketRecord) :
    busyIn (safeResolved bin hold r).state = false := by
  unfold safeResolved
  split <;> first | rfl | (rename_i h; rw [h]; rfl)

section
variable {u : State} (hrails : ∀ k, look u.rails k = ⟨.off, .off⟩)
include hrails

theorem rail_of_allOff (k : Socket) (r : RailKind) : u.rail k r = .off := by
  rw [State.rail, hrails]
  cases r <;> rfl

theorem railTotal_allOff : railTotal u = 0 := by
  have hshare (k : Socket) (r : RailKind) : contributionOf u k r = 0 := by
    unfold contributionOf
    rw [rail_of_allOff hrails]
    rfl
  unfold railTotal
  simp only [hshare]
  exact sumSockets_zero

theorem waitingList_allOff : u.waitingList = [] := by
  refine List.eq_nil_iff_forall_not_mem.mpr fun x hx => ?_
  have hwait := waitingList_mem.mp (show (x.1, x.2) ∈ u.waitingList from hx)
  rw [rail_of_allOff hrails] at hwait
  exact RailState.noConfusion hwait

/-- With every rail OFF a round end allots and grants nothing. -/
theorem roundEnd_allOff : roundEnd u = { allot u with supply := { (allot u).supply with overload := 0 } } := by
  have hwithin : (allot u).supply.railAllotment ≤ u.bulkLimit := by
    have hnone : (allot u).supply.railAllotment = 0 := railTotal_allOff hrails
    rw [hnone]
    exact Nat.zero_le _
  rw [(roundEnd_spec u).1 hwithin]
  exact grantDecision_nil (waitingList_allOff hrails)

end

theorem allot_applied_rests {u : State} {k : Socket} (h : u.live k = false) :
    look (allot u).supply.applied k = 0 := by
  have hdemand : demandOf u k = 0 := by
    unfold demandOf countedHeat
    rw [h, Bool.false_and]
    rfl
  rw [allot_applied, dutyAt, hdemand, Nat.zero_mul, Nat.zero_div]

/-- What a round end leaves of a part that has just entered SAFE. -/
theorem roundEnd_safe {c : SafeCause} {s u : State} (h : EntersSafe c s u) (k : Socket) :
    look (roundEnd u).rails k = ⟨.off, .off⟩ ∧ (roundEnd u).run k = none
      ∧ look (roundEnd u).active k = 0 ∧ look (roundEnd u).supply.applied k = 0
      ∧ (roundEnd u).sock k = safeResolved (retireBin k s) s.board.host.holdTime (s.sock k) := by
  obtain ⟨-, -, -, hrails, -, hduty, -, -, -, hsock, -, -, -⟩ := h
  have hrest : u.live k = false := by
    have hidle := safeResolved_rests (retireBin k s) s.board.host.holdTime (s.sock k)
    rw [← hsock k, ← busy_eq] at hidle
    exact Bool.eq_false_iff.mpr fun hl => Bool.eq_false_iff.mp hidle (busy_of_live hl)
  rw [roundEnd_allOff fun j => (hrails j).1]
  exact ⟨(hrails k).1, (hrails k).2, (hduty k).1, allot_applied_rests hrest, hsock k⟩

/-- Settles O36: the code against the minimum and the counter; in the second case SAFE, if not held yet. -/
theorem twoLowBulkSamplesEnterSafe : Obligations.TwoLowBulkSamplesEnterSafe := by
  intro code number at_ s hr hround arrived
  have hexec := channelArrival_bulk (code := code) hr hround
  refine ⟨_, hexec, ?_, roundEnd_allowance _, fun h => ?_, fun h h0 => ?_, fun h h0 => ?_⟩
  · rw [roundEnd_scan]
    unfold compareBulk enterSafe
    split_ifs <;> rfl
  · rw [compareBulk_enough h]
    exact ⟨roundEnd_spec _, roundEnd_bulkLow _, roundEnd_mode _, roundEnd_safeCause _⟩
  · rw [compareBulk_first h h0]
    exact ⟨roundEnd_spec _, roundEnd_bulkLow _, roundEnd_mode _, roundEnd_safeCause _⟩
  · rw [compareBulk_second h h0]
    by_cases hm : s.mode = .safe
    · have hsafe : enterSafe .bulkLow (bulkArrived code number 0 s) = bulkArrived code number 0 s :=
        enterSafe_safe hm
      rw [hsafe]
      refine ⟨roundEnd_bulkLow _, (roundEnd_mode _).trans hm, ?_, fun _ => roundEnd_spec _,
        fun hn => absurd hm hn, fun hn => absurd hm hn⟩
      rw [if_pos hm]
      exact roundEnd_safeCause _
    · have henters : EntersSafe .bulkLow (bulkArrived code number 0 s)
          (enterSafe .bulkLow (bulkArrived code number 0 s)) := enterSafe_spec hm
      have ⟨hmode, hcause, _, _, _, _, _, _, _, _, _, _, hframe⟩ := henters
      refine ⟨(roundEnd_bulkLow _).trans (congrArg State.bulkLow hframe :), (roundEnd_mode _).trans hmode, ?_,
        fun hn => absurd hn hm, fun _ => ⟨_, henters, roundEnd_spec _⟩, fun _ k => roundEnd_safe henters k⟩
      rw [if_neg hm]
      exact (roundEnd_safeCause _).trans hcause

/-! ### The overload check (R95, R96) -/

theorem shedChoice_some {s : State} {k : Socket} (hk : (s.sock k).state = .stressing)
    (hmost : ∀ j, (s.sock j).state = .stressing → socketShare s j ≤ socketShare s k)
    (hlow : ∀ j, j < k → (s.sock j).state = .stressing → socketShare s j < socketShare s k) :
    shedChoice s = some k := by
  obtain ⟨hnone, hsome⟩ := shedChoice_spec s
  cases hc : shedChoice s with
  | none => exact absurd hk (hnone hc k)
  | some b =>
    obtain ⟨hb, hbmost, hblow⟩ := hsome b hc
    rcases lt_trichotomy b k with h | h | h
    · exact absurd (hlow b h hb) (Nat.not_lt_of_le (hbmost k hk))
    · rw [h]
    · exact absurd (hblow k h hk) (Nat.not_lt_of_le (hmost b hb))

theorem shedChoice_none {s : State} (h : ∀ k, (s.sock k).state ≠ .stressing) : shedChoice s = none := by
  cases hc : shedChoice s with
  | none => rfl
  | some k => exact absurd ((shedChoice_spec s).2 k hc).1 (h k)

theorem overloadCheck_within {s : State} (h : s.supply.railAllotment ≤ s.bulkLimit) :
    overloadCheck s = (0, none) := if_pos h

theorem overloadCheck_first {s : State} (h : s.bulkLimit < s.supply.railAllotment)
    (h0 : s.supply.overload = 0) : overloadCheck s = (1, none) :=
  (if_neg (Nat.not_le_of_lt h)).trans (if_pos h0)

theorem overloadCheck_second {s : State} (h : s.bulkLimit < s.supply.railAllotment)
    (h1 : s.supply.overload ≠ 0) : overloadCheck s = (0, shedChoice s) :=
  (if_neg (Nat.not_le_of_lt h)).trans (if_neg h1)

theorem allotment_shares (s : State) :
    (allot s).supply.railAllotment = sumSockets fun k => railShare s k .core + railShare s k .aux :=
  (allot_railAllotment s).trans (sumSockets_congr fun k => socketShare_allot s k)

/-- The grant decision that ends a round gives no order and touches no record. -/
theorem roundEnd_counted {s : State} {n : Nat} (h : roundEnd s = grantDecision
    { allot s with supply := { (allot s).supply with overload := n } }) :
    (roundEnd s).orders = s.orders ∧ (roundEnd s).sockets = s.sockets := by
  rw [h]
  exact ⟨(grantDecision_only _).orders, (grantDecision_only _).sockets⟩

/-- A socket that a round end sheds is in its orders, or has taken the order already. -/
theorem roundEnd_sheds {k : Socket} {s : State} (h : s.bulkLimit < (allot s).supply.railAllotment)
    (h1 : s.supply.overload ≠ 0) (hk : Sheds k s) :
    ((roundEnd s).orders = s.orders ++ [⟨k, .toShedHold⟩] ∧ (roundEnd s).sockets = s.sockets)
      ∨ ((roundEnd s).orders = s.orders
        ∧ (roundEnd s).sockets = put s.sockets k (stoppedRecord .toShedHold (s.sock k))) := by
  have hcase := ((roundEnd_spec s).2.2 h h1).2 k hk
  dsimp only at hcase
  rcases hcase with ht | ⟨v, hstops, -, horders, -, ht⟩
  · rw [ht]
    exact .inl ⟨rfl, (grantDecision_only _).sockets⟩
  · obtain ⟨hsock, hothers, -⟩ := hstops
    rw [ht]
    refine .inr ⟨(grantDecision_only v).orders.trans horders, ?_⟩
    rw [(grantDecision_only v).sockets]
    refine table_ext fun j => ?_
    rw [look_put]
    split
    · subst_vars
      exact hsock
    · rename_i hj
      exact hothers j hj

/-- Settles O39: the check by the limit and the counter, then the round end by the same cases. -/
theorem theSecondOverloadShedsTheLargestSocket : Obligations.TheSecondOverloadShedsTheLargestSocket := by
  intro s share
  refine ⟨overloadCheck_within, overloadCheck_first,
    fun h h1 => ⟨fun hnone => ?_, fun k hk hmost hlow => ?_⟩, fun code number at_ hr hround hmin => ?_⟩
  · rw [overloadCheck_second h h1, shedChoice_none hnone]
  · rw [overloadCheck_second h h1, shedChoice_some hk hmost hlow]
  · have hexec := channelArrival_bulk (code := code) hr hround
    rw [compareBulk_enough hmin] at hexec
    obtain ⟨hwithin, hfirst, hsecond⟩ := roundEnd_spec (bulkArrived code number 0 s)
    have hrails := roundEnd_allotment (bulkArrived code number 0 s)
    have hcount := roundEnd_overload (bulkArrived code number 0 s)
    refine ⟨_, hexec, hrails.trans (allotment_shares _), fun h => ?_, fun h h0 => ?_, fun h h1 => ?_⟩
    · rw [hrails] at h
      exact ⟨hcount.trans (congrArg Prod.fst (overloadCheck_within h)), roundEnd_counted (hwithin h)⟩
    · rw [hrails] at h
      have hcheck := overloadCheck_first (s := allot (bulkArrived code number 0 s)) h h0
      exact ⟨hcount.trans (congrArg Prod.fst hcheck), roundEnd_counted (hfirst h h0)⟩
    · rw [hrails] at h
      have hcheck := overloadCheck_second (s := allot (bulkArrived code number 0 s)) h h1
      exact ⟨hcount.trans (congrArg Prod.fst hcheck), fun hnone => roundEnd_counted ((hsecond h h1).1 hnone),
        fun k hk => roundEnd_sheds (s := bulkArrived code number 0 s) h h1 hk⟩

end Sys2Proof.Machine
end

section
/-! SUPPORT. The proofs of chapter 09: a fail taken by the socket's state, and the account of the fails. -/

namespace Sys2Proof.Machine

/-! ### A fail taken (R136 to R139) -/

theorem countRecord_eq (f : FailKind) (time : Nat) (r : SocketRecord) :
    countRecord f time r = { r with
      cumulative := put r.cumulative (kindIndex f) (satAdd 65535 (look r.cumulative (kindIndex f)) 1)
      episode := put r.episode (kindIndex f) (satAdd 255 (look r.episode (kindIndex f)) 1)
      firstFail := if r.firstFail = none then some ⟨f, time⟩ else r.firstFail
      lastFail := some ⟨f, time⟩ } := by
  unfold countRecord
  cases r.firstFail <;> rfl

/-- The state in which a fail is counted and not yet acted on. -/
def failCounted (f : FailMsg) (s : State) : State := s.modSock f.socket (countRecord f.kind s.runClock)

section
variable {f : FailMsg} {s : State}

theorem failCounted_sock (j : Socket) : (failCounted f s).sock j
    = if j = f.socket then countRecord f.kind s.runClock (s.sock f.socket) else s.sock j :=
  sock_modSock s f.socket _ j

theorem failCounted_live (k : Socket) : (failCounted f s).live k = s.live k := by
  rw [live_eq, live_eq, failCounted_sock]
  split
  · subst_vars
    rfl
  · rfl

theorem reached_failCounted : reached f (failCounted f s) = true
    ↔ (look s.policy (kindIndex f.kind)).threshold
      ≤ satAdd 255 (look (s.sock f.socket).episode (kindIndex f.kind)) 1 := by
  have hepisode : look ((failCounted f s).sock f.socket).episode (kindIndex f.kind)
      = satAdd 255 (look (s.sock f.socket).episode (kindIndex f.kind)) 1 := by
    rw [failCounted_sock, if_pos rfl]
    exact look_put_same _ _ _
  rw [reached, hepisode, decide_eq_true_eq]
  rfl

theorem takeFail_idle (h : s.busy f.socket = false) : takeFail f s = s := by
  rw [busy_eq] at h
  unfold takeFail
  split
  all_goals
    rename_i hs
    first | rfl | (rw [hs] at h; cases h)

theorem takeFail_live (h : s.live f.socket = true) :
    takeFail f s = actAndLog f (actRunning f (failCounted f s)) (failCounted f s) := by
  rw [live_eq] at h
  unfold takeFail
  split
  all_goals
    rename_i hs
    rw [hs] at h
    first | rfl | cases h

theorem takeFail_stopping (h : (s.sock f.socket).state = .stopping) :
    takeFail f s = actAndLog f (actStopping f (failCounted f s)) (failCounted f s) := by
  rw [takeFail, h]
  rfl

theorem actAndLog_none (a : LogAction) :
    actAndLog f (none, a) s = storeEntry (entryOf f s.runClock a) s := rfl

theorem actAndLog_order (d : OrderDest) (a : LogAction) :
    actAndLog f (some d, a) s = storeEntry (entryOf f s.runClock a) (takeOrder ⟨f.socket, d⟩ s) := rfl

/-- The count alone, or too few fails: nothing is done. -/
theorem actRunning_none (h : (look s.policy (kindIndex f.kind)).action = .count ∨ ¬reached f s = true) :
    actRunning f s = (none, .none) := by
  unfold actRunning
  split
  · rfl
  all_goals
    rename_i ha
    exact if_neg (h.resolve_left fun hc => PolicyAction.noConfusion (ha.symm.trans hc))

theorem actRunning_hold (h : (look s.policy (kindIndex f.kind)).action = .hold) (hr : reached f s = true) :
    actRunning f s = (some (.toPolicyHold f.kind), .hold) := by
  rw [actRunning, h]
  exact if_pos hr

theorem actRunning_retire (h : (look s.policy (kindIndex f.kind)).action = .retire)
    (hr : reached f s = true) : actRunning f s = (some (.toRetired f.kind), .retire) := by
  rw [actRunning, h]
  exact if_pos hr

theorem actStopping_retire (h : (look s.policy (kindIndex f.kind)).action = .retire)
    (hr : reached f s = true) (hd : (s.sock f.socket).stopDest ≠ some .retired) :
    actStopping f s = (some (.toRetired f.kind), .retire) := by
  rw [actStopping, h]
  exact if_pos ⟨hr, hd⟩

theorem actStopping_late (h : (look s.policy (kindIndex f.kind)).action ≠ .retire ∨ ¬reached f s = true
    ∨ (s.sock f.socket).stopDest = some .retired) : actStopping f s = (none, .late) := by
  unfold actStopping
  split
  · rename_i ha
    refine if_neg fun hc => ?_
    rcases h with h | h | h
    · exact h ha
    · exact h hc.1
    · exact hc.2 h
  · rfl
  · rfl

/-- A fail whose policy stops its running socket. -/
theorem takeFail_stops {d : OrderDest} {a : LogAction} (hl : s.live f.socket = true)
    (hact : actRunning f (failCounted f s) = (some d, a)) :
    ∃ t, takeFail f s = storeEntry (entryOf f s.runClock a) t
      ∧ Stops f.socket d (failCounted f s) t ∧ StopFrame (failCounted f s) t
      ∧ t.orders = s.orders ∧ t.answer = s.answer := by
  have hlive : (failCounted f s).live f.socket = true := (failCounted_live _).trans hl
  refine ⟨stopSocketBy f.socket d (failCounted f s), ?_, stopSocketBy_stops _ _ _,
    stopSocketBy_frame _ _ _, stopSocketBy_orders _ _ _, ?_⟩
  · rw [takeFail_live hl, hact, actAndLog_order,
      takeOrder_live (o := ⟨f.socket, d⟩) hlive]
    rfl
  · exact (congrArg State.answer (stopSocketBy_only f.socket d (failCounted f s)).eq :)

end

theorem modSock_written (k : Socket) (r : SocketRecord) (g : SocketRecord → SocketRecord) (s : State) :
    ({ s with sockets := put s.sockets k r } : State).modSock k g
      = { s with sockets := put s.sockets k (g r) } := by
  rw [State.modSock]
  dsimp only
  rw [put_put, look_put_same]

/-- Settles O47: the fail by the socket's state, then by the action and the threshold of its policy entry. -/
theorem failsAreCountedActedOnAndLogged : Obligations.FailsAreCountedActedOnAndLogged := by
  intro f s i r e counted reached' taken entry
  have hrecord : countRecord f.kind s.runClock r = counted := countRecord_eq _ _ _
  have htaken : failCounted f s = taken := by
    rw [failCounted, State.modSock]
    exact congrArg (fun x => { s with sockets := put s.sockets f.socket x }) hrecord
  have hreached : reached f (failCounted f s) = true ↔ reached' := reached_failCounted
  refine ⟨fun hr => exec_effect (.failTaken f) rfl hr, takeFail_idle, fun hl h => ?_,
    fun hl ha h => ?_, fun hl ha h => ?_, fun hs ha h hd => ?_, fun hs h => ?_⟩
  · rw [takeFail_live hl, actRunning_none (s := failCounted f s) (h.imp_right fun hn hc => hn (hreached.mp hc)),
      actAndLog_none, htaken]
    rfl
  · rw [← htaken]
    exact takeFail_stops hl (actRunning_hold ha (hreached.mpr h))
  · rw [← htaken]
    exact takeFail_stops hl (actRunning_retire ha (hreached.mpr h))
  · have hdest : ((failCounted f s).sock f.socket).stopDest ≠ some .retired := by
      rw [failCounted_sock, if_pos rfl]
      exact hd
    have hstop : ((failCounted f s).sock f.socket).state = .stopping := by
      rw [failCounted_sock, if_pos rfl]
      exact hs
    rw [takeFail_stopping hs, actStopping_retire (s := failCounted f s) ha (hreached.mpr h) hdest, actAndLog_order,
      takeOrder_stopping (o := ⟨f.socket, .toRetired f.kind⟩) hstop, htaken]
    have hrestop : restopRecord (.toRetired f.kind) counted
        = { counted with stopDest := some .retired, holdReason := none, retireKind := some f.kind } := if_neg hd
    have hmod : taken.modSock f.socket (restopRecord (.toRetired f.kind)) = { s with
        sockets := put s.sockets f.socket (restopRecord (.toRetired f.kind) counted) } :=
      modSock_written f.socket counted _ s
    rw [hrestop] at hmod
    exact congrArg (storeEntry _) hmod
  · have hlate : (look (failCounted f s).policy (kindIndex f.kind)).action ≠ .retire
        ∨ ¬reached f (failCounted f s) = true
        ∨ ((failCounted f s).sock f.socket).stopDest = some .retired := by
      rw [hreached, failCounted_sock, if_pos rfl]
      exact h
    rw [takeFail_stopping hs, actStopping_late hlate, actAndLog_none, htaken]
    rfl

/-! ### The account of the fails (R143) -/

theorem recorded_append (k : Socket) (older : List LogEntry) (x : LogEntry) :
    recorded k (older ++ [x]) = recorded k older + if x.socket = k then x.repeats else 0 := by
  induction older with
  | nil => exact Nat.add_comm _ _
  | cons y ys ih =>
    have hcons (l : List LogEntry) :
        recorded k (y :: l) = (if y.socket = k then y.repeats else 0) + recorded k l := rfl
    rw [List.cons_append, hcons, hcons, ih, Nat.add_assoc]

/-- A new entry is recorded in the log or counted as unlogged (R141). -/
theorem storeEntry_accounts {e : LogEntry} {s : State} (he : e.repeats = 1)
    (hroom : (s.sock e.socket).unlogged < 255) :
    recorded e.socket (storeEntry e s).log + ((storeEntry e s).sock e.socket).unlogged
      = recorded e.socket s.log + (s.sock e.socket).unlogged + 1 := by
  unfold storeEntry
  rcases storing_cases s.log e with ⟨hs, x, hlast, hc⟩ | ⟨hs, -⟩ | ⟨hs, -⟩
  · obtain ⟨older, hlog⟩ := List.getLast?_eq_some_iff.mp hlast
    have hsocket := ((coalesces_iff x e).mp hc).1
    rw [hs]
    show recorded e.socket (bumpNewest s.log) + (s.sock e.socket).unlogged = _
    rw [hlog, bumpNewest_append, recorded_append, recorded_append, if_pos hsocket, if_pos hsocket]
    show recorded e.socket older + (x.repeats + 1) + (s.sock e.socket).unlogged = _
    omega
  · rw [hs]
    show recorded e.socket (s.log ++ [e]) + (s.sock e.socket).unlogged = _
    rw [recorded_append, if_pos rfl, he]
    omega
  · rw [hs]
    dsimp only
    rw [sock_modSock, if_pos rfl]
    show recorded e.socket s.log + satAdd 255 (s.sock e.socket).unlogged 1 = _
    rw [satAdd, if_neg (by omega)]
    omega

/-- The entry of one socket leaves the record of the others as it was. -/
theorem storeEntry_recorded_other {e : LogEntry} {j : Socket} (hj : j ≠ e.socket) (s : State) :
    recorded j (storeEntry e s).log = recorded j s.log := by
  unfold storeEntry
  rcases storing_cases s.log e with ⟨hs, x, hlast, hc⟩ | ⟨hs, -⟩ | ⟨hs, -⟩
  · obtain ⟨older, hlog⟩ := List.getLast?_eq_some_iff.mp hlast
    have hother : ¬x.socket = j := fun h => hj (h.symm.trans ((coalesces_iff x e).mp hc).1)
    rw [hs]
    show recorded j (bumpNewest s.log) = _
    rw [hlog, bumpNewest_append, recorded_append, recorded_append, if_neg hother, if_neg hother]
  · rw [hs]
    show recorded j (s.log ++ [e]) = _
    rw [recorded_append, if_neg hj.symm, Nat.add_zero]
  · rw [hs]
    rfl

theorem storeEntry_sock_other {e : LogEntry} {j : Socket} (hj : j ≠ e.socket) (s : State) :
    (storeEntry e s).sock j = s.sock j := by
  unfold storeEntry
  split
  · rfl
  · rfl
  · rw [sock_modSock, if_neg hj]

theorem storeEntry_cumulative (e : LogEntry) (s : State) (j : Socket) :
    ((storeEntry e s).sock j).cumulative = (s.sock j).cumulative := by
  unfold storeEntry
  split
  · rfl
  · rfl
  · rw [sock_modSock]
    split
    · subst_vars
      rfl
    · rfl

/-- A stop order touches one record, and neither its counts nor the log. -/
theorem takeOrder_accounts (o : StopOrder) (s : State) : (takeOrder o s).log = s.log
    ∧ (∀ j, j ≠ o.socket → (takeOrder o s).sock j = s.sock j)
    ∧ ((takeOrder o s).sock o.socket).cumulative = (s.sock o.socket).cumulative
    ∧ ((takeOrder o s).sock o.socket).unlogged = (s.sock o.socket).unlogged := by
  refine ⟨(takeOrder_only o s).log, ?_⟩
  have hstop : (∀ j, j ≠ o.socket → (stopSocketBy o.socket o.dest s).sock j = s.sock j)
      ∧ ((stopSocketBy o.socket o.dest s).sock o.socket).cumulative = (s.sock o.socket).cumulative
      ∧ ((stopSocketBy o.socket o.dest s).sock o.socket).unlogged = (s.sock o.socket).unlogged := by
    obtain ⟨hsock, hothers, -⟩ := stopSocketBy_stops o.socket o.dest s
    rw [hsock]
    exact ⟨hothers, rfl, rfl⟩
  have hrestop : (restopRecord o.dest (s.sock o.socket)).cumulative = (s.sock o.socket).cumulative
      ∧ (restopRecord o.dest (s.sock o.socket)).unlogged = (s.sock o.socket).unlogged := by
    unfold restopRecord
    split
    · split <;> exact ⟨rfl, rfl⟩
    all_goals exact ⟨rfl, rfl⟩
  unfold takeOrder
  split
  · exact hstop
  · exact hstop
  · refine ⟨fun j hj => by rw [sock_modSock, if_neg hj], ?_⟩
    rw [sock_modSock, if_pos rfl]
    exact hrestop
  all_goals exact ⟨fun _ _ => rfl, rfl, rfl⟩

/-- The one entry of a fail that is acted on; its stop order leaves counts and log to the entry. -/
theorem actAndLog_accounts (f : FailMsg) (act : Option OrderDest × LogAction) (s : State) :
    ∃ u, actAndLog f act s = storeEntry (entryOf f s.runClock act.2) u ∧ u.log = s.log
      ∧ (∀ j, j ≠ f.socket → u.sock j = s.sock j)
      ∧ (u.sock f.socket).cumulative = (s.sock f.socket).cumulative
      ∧ (u.sock f.socket).unlogged = (s.sock f.socket).unlogged := by
  obtain ⟨order, a⟩ := act
  cases order with
  | none => exact ⟨s, rfl, rfl, fun _ _ => rfl, rfl, rfl⟩
  | some d => exact ⟨takeOrder ⟨f.socket, d⟩ s, rfl, takeOrder_accounts ⟨f.socket, d⟩ s⟩

/-- What a fail of a running or stopping socket leads to: it is counted, and one entry is stored. -/
theorem takeFail_busy {f : FailMsg} {s : State} (h : s.busy f.socket = true) :
    ∃ a u, takeFail f s = storeEntry (entryOf f s.runClock a) u ∧ u.log = s.log
      ∧ (∀ j, j ≠ f.socket → u.sock j = s.sock j)
      ∧ (u.sock f.socket).cumulative = (countRecord f.kind s.runClock (s.sock f.socket)).cumulative
      ∧ (u.sock f.socket).unlogged = (s.sock f.socket).unlogged := by
  have hact (act : Option OrderDest × LogAction) : ∃ a u,
      actAndLog f act (failCounted f s) = storeEntry (entryOf f s.runClock a) u ∧ u.log = s.log
        ∧ (∀ j, j ≠ f.socket → u.sock j = s.sock j)
        ∧ (u.sock f.socket).cumulative = (countRecord f.kind s.runClock (s.sock f.socket)).cumulative
        ∧ (u.sock f.socket).unlogged = (s.sock f.socket).unlogged := by
    obtain ⟨u, hu, hlog, hothers, hcumulative, hunlogged⟩ := actAndLog_accounts f act (failCounted f s)
    rw [failCounted_sock, if_pos rfl] at hcumulative hunlogged
    refine ⟨act.2, u, hu, hlog, fun j hj => ?_, hcumulative, hunlogged⟩
    rw [hothers j hj, failCounted_sock, if_neg hj]
  rw [busy_eq] at h
  unfold takeFail
  split
  · exact hact _
  · exact hact _
  · exact hact _
  all_goals
    rename_i hs
    rw [hs] at h
    cases h

theorem cumulativeSum_eq (r : SocketRecord) : cumulativeSum r = ∑ i, look r.cumulative i := by
  rw [cumulativeSum, toList_eq_ofFn_look, List.sum_ofFn]

/-- A count that is not at its ceiling rises by 1, and so does the sum. -/
theorem countRecord_sum {f : FailKind} {r : SocketRecord} (h : look r.cumulative (kindIndex f) < 65535)
    (time : Nat) : cumulativeSum (countRecord f time r) = cumulativeSum r + 1 := by
  have hcount (i : Fin 8) : look (countRecord f time r).cumulative i
      = look r.cumulative i + if i = kindIndex f then 1 else 0 := by
    refine (look_put _ _ _ _).trans ?_
    by_cases hi : i = kindIndex f
    · rw [if_pos hi, if_pos hi, hi, satAdd, if_neg (by omega)]
    · rw [if_neg hi, if_neg hi, Nat.add_zero]
  rw [cumulativeSum_eq, cumulativeSum_eq, Finset.sum_congr rfl fun i _ => hcount i,
    Finset.sum_add_distrib, Finset.sum_ite_eq' Finset.univ (kindIndex f), if_pos (Finset.mem_univ _)]

/-- Settles O49: the counts by the record, the log and the unlogged count by the way the entry is stored. -/
theorem everyFailIsAccountedFor : Obligations.EveryFailIsAccountedFor := by
  intro f s hr hbusy hcount hroom
  obtain ⟨a, u, ht, hlog, hothers, hcumulative, hunlogged⟩ :=
    takeFail_busy (f := f) (s := { s with fails := s.fails.erase f }) hbusy
  refine ⟨_, exec_effect (.failTaken f) rfl hr, ?_, ?_, fun j hj => ?_⟩
  · show cumulativeSum ((takeFail f { s with fails := s.fails.erase f }).sock f.socket) = _
    rw [cumulativeSum, ht, storeEntry_cumulative, hcumulative]
    exact countRecord_sum hcount s.runClock
  · show recorded f.socket (takeFail f { s with fails := s.fails.erase f }).log
        + ((takeFail f { s with fails := s.fails.erase f }).sock f.socket).unlogged = _
    have haccount := storeEntry_accounts (e := entryOf f s.runClock a) (s := u) rfl
      (by rw [show (entryOf f s.runClock a).socket = f.socket from rfl, hunlogged]; exact hroom)
    rw [ht]
    refine haccount.trans ?_
    rw [hlog, show (entryOf f s.runClock a).socket = f.socket from rfl, hunlogged]
    rfl
  · show recorded j (takeFail f { s with fails := s.fails.erase f }).log = _
        ∧ (takeFail f { s with fails := s.fails.erase f }).sock j = _
    rw [ht, storeEntry_recorded_other hj, storeEntry_sock_other hj, hlog, hothers j hj]
    exact ⟨rfl, rfl⟩

end Sys2Proof.Machine
end

section
/-! SUPPORT. The proof of chapter 05's temperature arrival: the stages by the socket's state and the sample. -/

namespace Sys2Proof.Machine

/-! ### What an arrival hands on -/

/-- A TEMP sample with a value is VALID. -/
theorem tempSample_valid_of_value {code round : Nat} {offset t : Int}
    (h : (tempSample code offset round).value = some t) :
    (tempSample code offset round).validity = .valid := by
  unfold tempSample at h ⊢
  split
  · rename_i hshort
    rw [if_pos hshort] at h
    cases h
  · rename_i hshort
    split
    · rfl
    · rename_i hopen
      rw [if_neg hshort, if_neg hopen] at h
      cases h

theorem tempSample_code (code : Nat) (offset : Int) (round : Nat) :
    (tempSample code offset round).code = code := by
  unfold tempSample
  split
  · rfl
  · split <;> rfl

/-! ### A zeroing event with a new control state -/

/-- The state with control state `c` and no demand, duties and output of a socket at 0 (R71). -/
def heatZeroed (k : Socket) (c : HeatControl) (u : State) : State :=
  { u with
    heat := put u.heat k { c with demand := 0 }
    supply := { u.supply with applied := put u.supply.applied k 0 }
    active := put u.active k 0
    heaterOn := put u.heaterOn k false
    heaterOff := put u.heaterOff k none }

theorem heatZeroed_modHeat (k : Socket) (c : HeatControl) (u : State) (g : HeatControl → HeatControl) :
    (heatZeroed k c u).modHeat k g
      = { heatZeroed k c u with heat := put u.heat k (g { c with demand := 0 }) } := by
  unfold heatZeroed State.modHeat
  dsimp only
  rw [put_put, look_put_same]

theorem zeroHeat_zeroed (k : Socket) (u : State) : zeroHeat k u = heatZeroed k (look u.heat k) u := rfl

theorem zeroHeat_modHeat (k : Socket) (g : HeatControl → HeatControl) (u : State) :
    zeroHeat k (u.modHeat k g) = heatZeroed k (g (look u.heat k)) u := by
  rw [zeroHeat_zeroed]
  unfold heatZeroed State.modHeat
  dsimp only
  rw [put_put, look_put_same]

/-! ### The stages (R73 to R80) -/

/-- The runaway count after an arrival (R80). -/
def runawayCount (e t : Int) (guard demand before : Nat) : Nat :=
  if e + guard ≤ t ∧ demand = 0 then before + 1 else 0

theorem heatStages_eq (x : HeatInputs) (t : Int) (c : HeatControl) {e : Int} {out : Nat × Nat} {count : Nat}
    {fails : Bool} (he : rampStage x.target x.ramp (c.effective.getD x.target) = e)
    (hout : controlStage c.integrator x.kp x.ki (errorStage e t) = out)
    (hcount : runawayCount e t x.guard out.2 c.runaway = count)
    (hfails : decide (0 < count ∧ x.dwell ≤ count) = fails) :
    heatStages x t c = ({ c with
      effective := some e
      integrator := out.1
      runaway := if fails = true then 0 else count
      demand := out.2 }, fails) := by
  have hholds : (if runawayHolds e t x.guard out.2 = true then c.runaway + 1 else 0) = count := by
    rw [← hcount, runawayCount]
    refine if_congr ?_ rfl rfl
    rw [runawayHolds, Bool.and_eq_true, decide_eq_true_eq, beq_iff_eq]
  have hboth : (decide (x.dwell ≤ count) && decide (0 < count)) = fails := by
    rw [← hfails, Bool.and_comm, Bool.decide_and]
  unfold heatStages
  dsimp only
  rw [he, hout, hholds, hboth]

section
variable {k : Socket} {u : State}

theorem invalidSample_counts {code : Nat} {c : HeatControl} (hc : look u.heat k = c)
    (h : c.invalid + 1 < 3) :
    invalidSample k code u = heatZeroed k { c with invalid := c.invalid + 1 } u := by
  rw [invalidSample, hc, if_pos h, zeroHeat_zeroed, heatZeroed_modHeat, hc]
  rfl

theorem invalidSample_third {code : Nat} {c : HeatControl} (hc : look u.heat k = c)
    (h : 3 ≤ c.invalid + 1) : invalidSample k code u
    = takeFail ⟨k, .sensor, BitVec.ofNat 16 code, none⟩ (heatZeroed k { c with invalid := 0 } u) := by
  rw [invalidSample, hc, if_neg (Nat.not_lt_of_le h), zeroHeat_zeroed, heatZeroed_modHeat, hc]
  rfl

theorem validSample_hot {t : Int} (h : u.absLimit ≤ t) : validSample k t u
    = takeFail ⟨k, .overtemp, BitVec.ofInt 16 t, none⟩
      (heatZeroed k { look u.heat k with invalid := 0 } u) := by
  rw [validSample]
  dsimp only
  rw [if_pos h, overLimit, zeroHeat_modHeat]
  rfl

theorem validSample_controls {t : Int} (h : t < u.absLimit) {out : HeatControl × Bool}
    (hout : heatStages (heatInputs k u) t { look u.heat k with invalid := 0 } = out) :
    validSample k t u = if out.2 = true then
        takeFail ⟨k, .runaway, BitVec.ofInt 16 t, none⟩ { u with heat := put u.heat k out.1 }
      else { u with heat := put u.heat k out.1 } := by
  have hcontrol : look (u.modHeat k fun c => { c with invalid := 0 }).heat k
      = { look u.heat k with invalid := 0 } := look_put_same _ _ _
  have hinputs : heatInputs k (u.modHeat k fun c => { c with invalid := 0 }) = heatInputs k u := rfl
  have hdone : ((u.modHeat k fun c => { c with invalid := 0 }).modHeat k fun _ => out.1)
      = { u with heat := put u.heat k out.1 } := by
    unfold State.modHeat
    dsimp only
    rw [put_put]
  rw [validSample]
  dsimp only
  rw [hcontrol, hinputs, hout, hdone]
  exact if_neg (not_le.mpr h)

/-! ### A TEMP arrival by the socket's state (R72) -/

variable {x : Sample}

theorem heaterSample_idle (h : u.busy k = false) : heaterSample k x u = u := by
  rw [busy_eq] at h
  unfold heaterSample
  split
  all_goals
    rename_i hs
    first | rfl | (rw [hs] at h; cases h)

theorem heaterSample_stopping_invalid (h : (u.sock k).state = .stopping) (hv : x.value = none) :
    heaterSample k x u = u := by
  rw [heaterSample, h]
  dsimp only
  rw [hv]
  cases x.validity <;> rfl

theorem heaterSample_stopping_valid {t : Int} (h : (u.sock k).state = .stopping) (hv : x.value = some t)
    (hx : x.validity = .valid) : heaterSample k x u = if u.absLimit ≤ t then overLimit k t u else u := by
  rw [heaterSample, h]
  dsimp only
  rw [hv, hx]

theorem live_states (h : u.live k = true) :
    (u.sock k).state = .starting ∨ (u.sock k).state = .stressing := by
  rw [live_eq] at h
  revert h
  cases (u.sock k).state <;> simp [liveIn]

theorem heaterSample_live_invalid {code : Nat} (h : u.live k = true) (hv : x.value = none)
    (hc : x.code = code) : heaterSample k x u = invalidSample k code u := by
  rw [← hc]
  rcases live_states h with hs | hs
  all_goals
    rw [heaterSample, hs]
    dsimp only
    rw [hv]
    cases x.validity <;> rfl

theorem heaterSample_live_valid {t : Int} (h : u.live k = true) (hv : x.value = some t)
    (hx : x.validity = .valid) : heaterSample k x u = validSample k t u := by
  rcases live_states h with hs | hs
  all_goals
    rw [heaterSample, hs]
    dsimp only
    rw [hv, hx]

end

/-- A TEMP arrival: its record, the channel that follows, then the Heater Controller. -/
theorem channelArrival_temp {code : BitVec 12} {k : Socket} {number at_ : Nat} {s : State}
    (hr : s.resetting = none) (h : s.scan.round = some ⟨number, .temp k, at_⟩) :
    exec (.channelArrival code) s
      = .next (heaterSample k (tempSample code.toNat (look s.brd.calibration k) number) { s with
        scan := { s.scan with
          round := some ⟨number, .current k .core, s.now + 400⟩
          temp := put s.scan.temp k (some (tempSample code.toNat (look s.brd.calibration k) number)) } }) := by
  rw [exec_channelArrival code hr, takeCode, h]
  rfl

/-- Settles O33: the sample by its value and the limit, at an idle, a STOPPING and a live socket. -/
theorem aTempArrivalRunsTheStages : Obligations.ATempArrivalRunsTheStages := by
  intro code k number at_ s hr hround c x scan zeroed
  have hexec : exec (.channelArrival code) s = .next (heaterSample k x { s with scan := scan }) :=
    channelArrival_temp hr hround
  have hinvalid (hl : s.live k = true) (hv : x.value = none) :
      heaterSample k x { s with scan := scan } = invalidSample k code.toNat { s with scan := scan } :=
    heaterSample_live_invalid (u := { s with scan := scan }) hl hv (tempSample_code _ _ _)
  have hlive (t : Int) (hl : s.live k = true) (hv : x.value = some t) :
      heaterSample k x { s with scan := scan } = validSample k t { s with scan := scan } :=
    heaterSample_live_valid (u := { s with scan := scan }) hl hv (tempSample_valid_of_value hv)
  have hstopping (t : Int) (hs : (s.sock k).state = .stopping) (hv : x.value = some t) :
      heaterSample k x { s with scan := scan }
        = if s.absLimit ≤ t then overLimit k t { s with scan := scan } else { s with scan := scan } :=
    heaterSample_stopping_valid (u := { s with scan := scan }) hs hv (tempSample_valid_of_value hv)
  refine ⟨fun hb => ?_, fun hs hv => ?_, fun hl hv hn => ?_, fun hl hv hn => ?_, fun t hv =>
    ⟨fun hs ht => ?_, fun hs ht => ?_, fun hl ht => ?_, fun hl ht => ?_⟩⟩
  · exact hexec.trans (congrArg _ (heaterSample_idle hb))
  · exact hexec.trans (congrArg _ (heaterSample_stopping_invalid hs hv))
  · rw [hexec, hinvalid hl hv, invalidSample_counts (u := { s with scan := scan }) (c := c) rfl hn]
    rfl
  · rw [hexec, hinvalid hl hv, invalidSample_third (u := { s with scan := scan }) (c := c) rfl hn]
    rfl
  · rw [hexec, hstopping t hs hv, if_neg (not_le.mpr ht)]
  · rw [hexec, hstopping t hs hv, if_pos ht]
    rfl
  · rw [hexec, hlive t hl hv, validSample_hot (u := { s with scan := scan }) ht]
    rfl
  · intro p e out count fails done
    have hstages := heatStages_eq (heatInputs k { s with scan := scan }) t { c with invalid := 0 }
      (e := e) (out := out) (count := count) (fails := fails) rfl rfl rfl rfl
    exact (hexec.trans (congrArg _ (hlive t hl hv))).trans
      (congrArg _ (validSample_controls (u := { s with scan := scan }) ht hstages))

end Sys2Proof.Machine
end

section
/-! SUPPORT. The proof of chapters 03 and 04's current arrival: the trip, the VERIFY that waits, the mark. -/

namespace Sys2Proof.Machine

/-! ### How far a run has come -/

/-- A grant leaves direction, profile and step of a run. -/
theorem GrantedAtMost.run_shape {k : Socket} {s t : State} (h : GrantedAtMost k s t) {x : Run}
    (hx : t.run k = some x) :
    ∃ y, s.run k = some y ∧ x.direction = y.direction ∧ x.profile = y.profile ∧ x.step = y.step := by
  rcases h.2 with hsame | ⟨y, hy, hrises⟩
  · exact ⟨x, hsame.symm.trans hx, rfl, rfl, rfl⟩
  · rw [hrises, Option.some.injEq] at hx
    subst hx
    exact ⟨y, hy, rfl, rfl, rfl⟩

/-- The run of a socket, where it has one, stands at step `n` or later. -/
def StepFrom (n : Nat) (k : Socket) (s : State) : Prop := ∀ y, s.run k = some y → n ≤ y.step

section
variable {n : Nat} {k : Socket}

theorem StepFrom.of_runs {s t : State} (h : StepFrom n k s) (ht : t.runs = s.runs) : StepFrom n k t :=
  fun y hy => h y ((run_of_runs ht k).symm.trans hy)

theorem StepFrom.granted {s t : State} (h : StepFrom n k s) (hg : GrantedAtMost k s t) :
    StepFrom n k t := by
  intro y hy
  obtain ⟨x, hx, -, -, hstep⟩ := hg.run_shape hy
  rw [hstep]
  exact h x hx

theorem StepFrom.decided {s : State} (h : StepFrom n k s) : StepFrom n k (grantDecision s) :=
  h.granted (grantDecision_granted s k)

theorem StepFrom.cond {s : State} (h : StepFrom n k s) (c : StepCondition) :
    StepFrom n k (setCond k c s) := by
  intro y hy
  rw [setCond_run, if_pos rfl, Option.map_eq_some_iff] at hy
  obtain ⟨x, hx, rfl⟩ := hy
  exact h x hx

theorem stepFrom_ended (s : State) : StepFrom n k (s.setRun k none) := by
  intro y hy
  rw [setRun_run, if_pos rfl] at hy
  cases hy

theorem stepFrom_setStep {i : Nat} (h : n ≤ i) (c : StepCondition) (s : State) :
    StepFrom n k (setStep k i c s) := by
  intro y hy
  unfold setStep at hy
  split at hy
  · rw [setRun_run, if_pos rfl, Option.some.injEq] at hy
    subst hy
    exact h
  · rename_i hnone
    rw [hnone] at hy
    cases hy

theorem StepFrom.finished {s : State} (h : StepFrom n k s) : StepFrom n k (finishRun k s) := by
  unfold finishRun
  split
  · exact h
  · split
    · exact stepFrom_ended s
    · have hdrop : StepFrom n k (dropBoth k s) :=
        h.of_runs ((dropRail_runs k .aux _).trans (dropRail_runs k .core s))
      have hend : StepFrom n k (if bothOff k (dropBoth k s) = true then (dropBoth k s).setRun k none
          else setCond k .falling (dropBoth k s)) := by
        split
        · exact stepFrom_ended _
        · exact hdrop.cond _
      dsimp only
      split
      · exact hend.decided
      · exact hend

theorem StepFrom.joined {s : State} (h : StepFrom n k s) (r : RailKind) : StepFrom n k (joinList k r s) := by
  have hwaits : StepFrom n k (enterRail k r ⟨.waitGrant, none, 0⟩ s) := h.of_runs rfl
  exact (hwaits.cond .waitGrant).decided

/-- A run that goes on from step `i` with steps left stands at `i` or later. -/
theorem runSteps_from {l : List Step} {i : Nat} {s : State} (hi : n ≤ i)
    (h : l ≠ [] ∨ StepFrom n k s) : StepFrom n k (runSteps l i k s) := by
  induction l generalizing i s with
  | nil => exact (h.resolve_left fun hn => hn rfl).finished
  | cons x rest ih =>
    have hset (c : StepCondition) : StepFrom n k (setStep k i c s) := stepFrom_setStep hi c s
    have hdrop (c : StepCondition) (r : RailKind) : StepFrom n k (dropRail k r (setStep k i c s)) :=
      (hset c).of_runs (dropRail_runs k r _)
    have hnext : n ≤ i + 1 := Nat.le_succ_of_le hi
    unfold runSteps
    split
    · split
      · exact (hset _).joined _
      · exact ih hnext (.inr (hset _))
      all_goals exact hset _
    · split
      · exact hdrop _ _
      · exact (hdrop _ _).decided
      · exact hset _
      · exact ih hnext (.inr (hdrop _ _))
      · exact ih hnext (.inr (hset _))
    all_goals exact hset _

end

/-! ### The trip and the VERIFY that waits (R59, R63) -/

section
variable {k : Socket} {r : RailKind} {s : State}

theorem tripCheck_eq (k : Socket) (r : RailKind) (i : Nat) (s : State) :
    tripCheck k r i s = { s with fails := s.fails ++
      (if s.powered k r = true ∧ s.trip r < i then [⟨k, .overcurrent, BitVec.ofNat 16 i, none⟩] else []) } := by
  unfold tripCheck
  split
  · rfl
  · rw [List.append_nil]

theorem verifyBounds_none (h : ∀ x q lo hi, s.run k = some x → x.cond = .sample →
      ((look s.profiles x.profile).drop (x.step - 1)).head? = some (.verify q lo hi) → q ≠ r) :
    verifyBounds k r s = none := by
  unfold verifyBounds
  split
  · rename_i x q lo hi hx hstep
    rw [stepNow_eq hx] at hstep
    exact if_neg fun hc => h x q lo hi hx hc.1 hstep hc.2
  · rfl

theorem verifyBounds_some {x : Run} {lo hi : Nat} {rest : List Step} (hx : s.run k = some x)
    (hc : x.cond = .sample)
    (hsteps : (look s.profiles x.profile).drop (x.step - 1) = .verify r lo hi :: rest) :
    verifyBounds k r s = some (lo, hi) := by
  have hstep : stepNow k s = some (.verify r lo hi) := by rw [stepNow_eq hx, hsteps]; rfl
  rw [verifyBounds, hx, hstep]
  exact if_pos ⟨hc, rfl⟩

theorem verdict_none {i : Nat} (h : verifyBounds k r s = none) : verdict k r i s = none := by
  rw [verdict, h]
  rfl

/-- The judgment of R59's table. -/
theorem verdict_some {i lo hi : Nat} (h : verifyBounds k r s = some (lo, hi)) : verdict k r i s =
    if (s.rail k r).state ≠ .on then some ⟨k, .undercurrent, BitVec.ofNat 16 i, none⟩
    else if s.trip r < i then none
    else if hi < i then some ⟨k, .overcurrent, BitVec.ofNat 16 i, none⟩
    else if i < lo then some ⟨k, .undercurrent, BitVec.ofNat 16 i, none⟩
    else none := by
  rw [verdict, h, Option.bind_some]
  unfold verifyFail
  split
  · rename_i hon
    rw [if_neg (not_not.mpr hon)]
    split_ifs <;> rfl
  all_goals
    rename_i hs
    rw [if_pos (by rw [hs]; exact nofun)]
    rfl

/-! ### The mark (R88) -/

/-- The rail's mark after a sample: set, or left cleared by a change of the rail's own state (log 9). -/
def marked (k : Socket) (r : RailKind) (v : State) : State :=
  if (look v.supply.measured k).get r then v
  else if Config.coin v.draws then setMark k r true v.draw
  else v.draw

/-- What the mark changes. -/
theorem marked_frame (k : Socket) (r : RailKind) (v : State) : marked k r v = { v with
    draws := (marked k r v).draws
    supply := { v.supply with measured := (marked k r v).supply.measured } } := by
  unfold marked
  split_ifs <;> rfl

theorem marked_runs (k : Socket) (r : RailKind) (v : State) : (marked k r v).runs = v.runs := by
  rw [marked_frame]

theorem marked_fails (k : Socket) (r : RailKind) (v : State) : (marked k r v).fails = v.fails := by
  rw [marked_frame]

theorem marked_set {v : State} (h : (look v.supply.measured k).get r = true) : marked k r v = v :=
  if_pos h

theorem marked_cleared {v : State} (h : (look v.supply.measured k).get r = false) :
    marked k r v = v.draw ∨ marked k r v = setMark k r true v.draw := by
  unfold marked
  rw [h, if_neg Bool.false_ne_true]
  split
  · exact .inr rfl
  · exact .inl rfl

/-- The Rail Sequencer's part and the mark, against the state before them. -/
theorem marked_railsFrame {a v : State} (h : RailsOnly a v) : marked k r v = { a with
    rails := (marked k r v).rails
    runs := (marked k r v).runs
    fails := (marked k r v).fails
    draws := (marked k r v).draws
    supply := { a.supply with
      measured := (marked k r v).supply.measured, grantSum := (marked k r v).supply.grantSum } } := by
  have hmark := marked_frame k r v
  generalize marked k r v = u at hmark ⊢
  generalize u.draws = d, u.supply.measured = m at hmark
  subst hmark
  exact congrArg (fun w : State => { w with draws := d, supply := { w.supply with measured := m } }) h.eq

theorem deliverCurrent_eq {i : Nat} {u : State} (h : tripCheck k r i (setMark k r true s) = u) :
    deliverCurrent k r i s = marked k r (passVerify k r u) := by
  rw [deliverCurrent, sequencerSample, h]
  rfl

theorem passVerify_none (h : verifyBounds k r s = none) : passVerify k r s = s := by
  rw [passVerify, h]
  rfl

theorem passVerify_some {x : Run} {lo hi : Nat} {rest : List Step} (hx : s.run k = some x)
    (hc : x.cond = .sample)
    (hsteps : (look s.profiles x.profile).drop (x.step - 1) = .verify r lo hi :: rest) :
    passVerify k r s = runSteps rest (x.step + 1) k s := by
  rw [passVerify, verifyBounds_some hx hc hsteps, nextStep_eq hx, hsteps]
  rfl

end

/-! ### A current arrival (R39) -/

/-- A current arrival's record and the channel that follows, before its users take it. -/
def currentRecorded (i code number : Nat) (k : Socket) (r : RailKind) (following : Channel) (s : State) :
    State :=
  { s with scan := { s.scan with
    round := some ⟨number, following, s.now + 400⟩
    current := put s.scan.current k ((look s.scan.current k).set r
      (some ⟨some (i : Int), .valid, code, number⟩)) } }

theorem channelArrival_current {code : BitVec 12} {k : Socket} {r : RailKind} {number at_ i : Nat}
    {following : Channel} {s : State} (hr : s.resetting = none)
    (h : s.scan.round = some ⟨number, .current k r, at_⟩)
    (hi : code.toNat * (s.brd.rail.get r).fullScale / 4096 = i)
    (hnext : nextChannel s (.current k r) = some following) :
    exec (.channelArrival code) s
      = .next (takeVerdict (verdict k r i (currentRecorded i code.toNat number k r following s))
        (deliverCurrent k r i (currentRecorded i code.toNat number k r following s))) := by
  subst hi
  rw [exec_channelArrival code hr, takeCode, h]
  dsimp only
  rw [advanceRound, hnext]
  rfl

/-- Settles O35: without a VERIFY that waits for the rail the arrival stands as it is; with one the run goes
on, and R59's judgment follows. -/
theorem aCurrentArrivalIsComparedWithTheTrip : Obligations.ACurrentArrivalIsComparedWithTheTrip := by
  intro code k r number at_ s hr hround i tripped following arrived
  have hnext : nextChannel s (.current k r) = some following := by
    cases r <;> rfl
  have hexec := channelArrival_current (i := i) hr hround rfl hnext
  have harrived : tripCheck k r i (setMark k r true (currentRecorded i code.toNat number k r following s))
      = arrived := tripCheck_eq k r i _
  rw [deliverCurrent_eq harrived] at hexec
  have hmarked : (look arrived.supply.measured k).get r = true := by
    show (look (put s.supply.measured k ((look s.supply.measured k).set r true)) k).get r = true
    rw [look_put_same, get_set_same]
  refine ⟨fun hno => ?_, ?_, fun x lo hi rest hx hc hsteps => ?_⟩
  · have hbounds := verifyBounds_none (s := currentRecorded i code.toNat number k r following s) hno
    have hpass : passVerify k r arrived = arrived := passVerify_none (verifyBounds_none hno)
    rw [verdict_none hbounds, hpass, marked_set hmarked] at hexec
    exact hexec
  · have hnone : arrived.resetting.isNone = true := by rw [show arrived.resetting = none from hr]; rfl
    exact if_pos hnone
  · intro judged v drawn
    have hjudged : verdict k r i (currentRecorded i code.toNat number k r following s) = judged :=
      verdict_some (s := currentRecorded i code.toNat number k r following s)
        (verifyBounds_some hx hc hsteps)
    have hpass : passVerify k r arrived = v := passVerify_some (s := arrived) hx hc hsteps
    rw [hjudged, hpass] at hexec
    have honly : RailsOnly arrived v := runSteps_only rest (x.step + 1) k arrived
    have hdraw : v.draw = drawn := by
      have hdraws : v.draws = s.draws := (congrArg State.draws honly.eq :)
      rw [State.draw, hdraws]
    obtain ⟨more, hmore, hfaults⟩ := runSteps_fails rest (x.step + 1) k arrived
    have hended (hnil : rest = []) (hup : x.direction = .up) : v.run k = none := by
      have hv : v = { arrived with runs := put s.runs k none } := by
        show runSteps rest (x.step + 1) k arrived = _
        rw [hnil]
        exact runSteps_nil_up (s := arrived) hx _ hup
      rw [hv]
      exact look_put_same _ _ _
    refine ⟨marked k r v, more, ?_, marked_set, fun hm => ?_, (marked_fails k r v).trans hmore, hfaults,
      fun y hy => ?_, fun hnil hup => ?_, marked_railsFrame honly⟩
    · rw [hexec]
      cases judged <;> rfl
    · rw [← hdraw]
      exact marked_cleared hm
    · rw [run_of_runs (marked_runs k r v)] at hy
      by_cases hnil : rest = []
      · cases hd : x.direction with
        | up =>
          rw [hended hnil hd] at hy
          cases hy
        | down => exact .inr ⟨hnil, rfl⟩
      · exact .inl (runSteps_from (Nat.le_refl _) (.inl hnil) y hy)
    · rw [run_of_runs (marked_runs k r v)]
      exact hended hnil hup

end Sys2Proof.Machine
end

section
/-! SUPPORT. The proof of chapter 11's Start: its checks, and what beginning the run leaves of each socket. -/

namespace Sys2Proof.Machine

/-! ### The lowest index that a check fails on -/

theorem find_lowest {n : Nat} {l : List (Fin n)} (hl : l.Pairwise (· < ·)) {p : Fin n → Bool} {k : Fin n}
    (hmem : k ∈ l) (hk : p k = true) (hlow : ∀ j, j < k → p j = false) : l.find? p = some k := by
  induction l with
  | nil => cases hmem
  | cons a rest ih =>
    obtain ⟨ha, hrest⟩ := List.pairwise_cons.mp hl
    rcases List.mem_cons.mp hmem with rfl | hmem
    · exact List.find?_cons_of_pos hk
    · have hskip : ¬p a = true := by rw [hlow a (ha k hmem)]; exact Bool.false_ne_true
      rw [List.find?_cons_of_neg hskip]
      exact ih hrest hmem

theorem startChecked_iff (s : State) (k : Socket) : startChecked s k = true
    ↔ (s.sock k).state ≠ .empty ∧ (s.sock k).state ≠ .retired ∧ (s.sock k).state ≠ .done := by
  unfold startChecked
  cases (s.sock k).state <;> decide

/-- A check of Start in words: it fails on the checked sockets that are bad. -/
theorem checkFails_iff {s : State} {k : Socket} {bad : Bool} {P : Prop} (h : bad = false ↔ P) :
    (startChecked s k && bad) = false
      ↔ ((s.sock k).state ≠ .empty ∧ (s.sock k).state ≠ .retired ∧ (s.sock k).state ≠ .done → P) := by
  rw [Bool.and_eq_false_imp, startChecked_iff, h]

section
variable {s : State} {bad : Socket → Bool} {ok : Socket → Prop}

variable (h : ∀ k, (startChecked s k && bad k) = false ↔ ok k)
include h

theorem lowestSocket_none (hall : ∀ k, ok k) : lowestSocket s bad = none := by
  refine List.find?_eq_none.mpr fun k _ => ?_
  rw [(h k).mpr (hall k)]
  exact Bool.false_ne_true

theorem lowestSocket_some {k : Socket} (hk : ¬ok k) (hlow : ∀ j, j < k → ok j) :
    lowestSocket s bad = some k := by
  refine find_lowest (by decide) (mem_allSockets k) ?_ fun j hj => (h j).mpr (hlow j hj)
  rw [← Bool.not_eq_false]
  exact fun hf => hk ((h k).mp hf)

end

theorem badUp_iff (s : State) (k : Socket) :
    badUp s k = false ↔ upValid (look s.profiles (s.sock k).params.upProfile) = true := by
  rw [badUp, Bool.not_eq_eq_eq_not, Bool.not_false]

theorem badDown_iff (s : State) (k : Socket) :
    badDown s k = false ↔ downValid (look s.profiles (s.sock k).params.downProfile) = true := by
  rw [badDown, Bool.not_eq_eq_eq_not, Bool.not_false]

theorem badTarget_iff (s : State) (k : Socket) :
    badTarget s k = false ↔ (s.sock k).params.target ≤ s.absLimit := by
  rw [badTarget, decide_eq_false_iff_not, Int.not_lt]

theorem badEdges_iff (s : State) (i : SlotId) :
    badEdges s i = false ↔ (s.slot i).edgeMin ≤ (s.slot i).edgeMax := by
  rw [badEdges, decide_eq_false_iff_not, Nat.not_lt]

/-- The checks of an ATTACHED board without an oven alarm, after the first two. -/
theorem startFailure_sockets {s : State} (ha : s.board.attach = .attached) (ho : s.ovenOk = true) :
    startFailure s = match lowestSocket s (badUp s) with
      | some k => some (.upProfile, some k.val)
      | none =>
        match lowestSocket s (badDown s) with
        | some k => some (.downProfile, some k.val)
        | none =>
          match lowestSocket s (badTarget s) with
          | some k => some (.target, some k.val)
          | none =>
            match allSlots.find? (badEdges s) with
            | some i => some (.slotEdges, some i.val)
            | none => none := by
  rw [startFailure, if_neg (not_not.mpr ha), if_neg (by rw [ho]; exact nofun)] <;> rfl

theorem start_fails {s : State} {item : StartItem} {number : Option Nat} (hm : s.mode = .config)
    (h : startFailure s = some (item, number)) :
    start s = s.reply .invalid (put1 item.code ++ put1 (number.getD 0xFF)) := by
  rw [start, if_neg (not_not.mpr hm), h]

/-! ### What a socket's start does to another socket -/

section
variable {j k : Socket} {p : ProfileId} {q : RailKind}

theorem Raising.of_eq {s t : State} (h : Raising k p q s) (hrails : ∀ r, t.rail k r = s.rail k r)
    (hrun : t.run k = s.run k) : Raising k p q t := by
  obtain ⟨hfirst, hothers⟩ := h
  refine ⟨?_, fun r hr => by rw [hrails r]; exact hothers r hr⟩
  unfold RaisesFirst
  rw [hrun, hrails q]
  exact hfirst

/-- A run that waits for its first rail, or has it, goes on to do so under any other socket's moves. -/
theorem RailMoves.raising (hj : k ≠ j) {s t : State} (hmoves : RailMoves j s t) (h : Raising k p q s) :
    Raising k p q t := by
  induction hmoves with
  | refl => exact h
  | tail _ hmove ih =>
    cases hmove with
    | enters r hx =>
      exact ih.of_eq (fun r' => by rw [enterRail_rail, if_neg fun hc => hj hc.1]) rfl
    | runs v => exact ih.of_eq (fun _ => rfl) (by rw [setRun_run, if_neg hj])
    | raises f => exact ih.of_eq (fun _ => rfl) rfl
    | grants =>
      refine grantAll_raising ih fun r hr => ?_
      by_contra hne
      exact ih.2 r hne (waitingList_mem.mp hr)

/-- The rail that an up-profile does not raise first does not wait. -/
theorem runStarted_raising {rest : List Step} {s : State} (hp : look s.profiles p = .raise q :: rest)
    (ho : bothOff k s = true) : Raising k p q (runStarted k .up p s) := by
  refine ⟨runStarted_raises hp ho, fun r hr => ?_⟩
  have hoff := bothOff_iff.mp ho
  let x : Run := ⟨.up, p, 1, .sample⟩
  have hx : ({ s with runs := put s.runs k (some x) } : State).run k = some x := look_put_same _ _ _
  rw [runStarted, hp, runSteps_raise_off hx _ _ _ (hoff q)]
  generalize hu : railEnters k q ⟨.waitGrant, none, 0⟩
    (runStands k x 1 .waitGrant { s with runs := put s.runs k (some x) }) = u
  have hr' : (u.rail k r).state = .off := by
    have hrail : u.rail k r = s.rail k r := by
      rw [← hu]
      exact (enterRail_rail k q _ s k r).trans (if_neg fun hc => hr hc.2)
    rw [hrail, hoff r]
  rcases (grantDecision_granted u k).1 r with h | ⟨h, -⟩
  · rw [h, hr']
    exact nofun
  · exact absurd (hr'.symm.trans h) nofun

end

/-- What the start of another socket leaves of socket `k` and of what its own start reads. -/
structure StartsBeside (k : Socket) (s t : State) : Prop where
  sock : t.sock k = s.sock k
  heat : look t.heat k = look s.heat k
  tickResult : look t.tickResult k = look s.tickResult k
  scan : t.scan = s.scan
  profiles : t.profiles = s.profiles
  granted : GrantedAtMost k s t
  raising : ∀ p q, Raising k p q s → Raising k p q t

theorem StartsBeside.refl (k : Socket) (s : State) : StartsBeside k s s :=
  ⟨rfl, rfl, rfl, rfl, rfl, .refl k s, fun _ _ h => h⟩

theorem StartsBeside.trans {k : Socket} {s t u : State} (h : StartsBeside k s t) (g : StartsBeside k t u) :
    StartsBeside k s u :=
  ⟨g.sock.trans h.sock, g.heat.trans h.heat, g.tickResult.trans h.tickResult, g.scan.trans h.scan,
    g.profiles.trans h.profiles, h.granted.trans g.granted, fun p q hr => g.raising p q (h.raising p q hr)⟩

theorem startAtStart_beside {j k : Socket} (hj : j ≠ k) (s : State) :
    StartsBeside k s (startAtStart j s) := by
  unfold startAtStart
  split
  · obtain ⟨-, hsock, hheat, htick, -, -, hgranted, -, hframe⟩ := enterStarting_spec j s
    refine ⟨hsock k hj.symm, ?_, ?_, (congrArg State.scan hframe :), (congrArg State.profiles hframe :),
      hgranted k hj.symm, fun p q h => ?_⟩
    · rw [hheat, look_put_other _ _ _ _ hj.symm]
    · rw [htick, look_put_other _ _ _ _ hj.symm]
    · rw [enterStarting_startMade]
      exact (startRun_moves j .up _ _).raising hj.symm (h.of_eq (fun _ => rfl) rfl)
  · exact .refl k s

/-- Around one socket's part in a pass over all sockets stand the parts of the others. -/
theorem forSockets_at {R : State → State → Prop} (hrefl : ∀ s, R s s)
    (htrans : ∀ s t u, R s t → R t u → R s u) {f : Socket → State → State} {k : Socket}
    (hf : ∀ j s, j ≠ k → R s (f j s)) (s : State) : ∃ u, R s u ∧ R (f k u) (forSockets f s) := by
  have hpass (l : List Socket) (hl : k ∉ l) (t : State) : R t (l.foldl (fun t j => f j t) t) := by
    induction l generalizing t with
    | nil => exact hrefl t
    | cons j rest ih =>
      have hj : j ≠ k := fun h => hl (h ▸ List.mem_cons_self ..)
      exact htrans _ _ _ (hf j t hj) (ih (List.not_mem_of_not_mem_cons hl) _)
  obtain ⟨before, after, hall⟩ := List.append_of_mem (mem_allSockets k)
  have hnodup := allSockets_nodup
  rw [hall] at hnodup
  obtain ⟨-, hafter, hsep⟩ := List.nodup_append.mp hnodup
  have hk_before : k ∉ before := fun h => hsep k h k (List.mem_cons_self ..) rfl
  have hk_after : k ∉ after := (List.nodup_cons.mp hafter).1
  refine ⟨before.foldl (fun t j => f j t) s, hpass before hk_before s, ?_⟩
  rw [forSockets, hall, List.foldl_append, List.foldl_cons]
  exact hpass after hk_after _

/-! ### Beginning the run (R18) -/

/-- What the starts of all sockets may change. -/
def StartsOnly (s t : State) : Prop :=
  t = { s with
    sockets := t.sockets
    heat := t.heat
    tickResult := t.tickResult
    rails := t.rails
    runs := t.runs
    fails := t.fails
    supply := { s.supply with measured := t.supply.measured, grantSum := t.supply.grantSum } }

theorem StartsOnly.trans {s t u : State} (h : StartsOnly s t) (g : StartsOnly t u) : StartsOnly s u := by
  unfold StartsOnly at h g ⊢
  rw [g, h]

theorem startAtStart_frame (k : Socket) (s : State) : StartsOnly s (startAtStart k s) := by
  unfold startAtStart
  split
  · obtain ⟨-, -, -, -, -, -, -, -, hframe⟩ := enterStarting_spec k s
    have hanswer := enterStarting_answer k s
    unfold StartsOnly
    rw [← hanswer]
    exact hframe
  · rfl

theorem startsAtStart_iff (r : SocketRecord) : startsAtStart r = true
    ↔ r.state = .idle ∨ (r.state = .held ∧ r.holdReason = some .safe) := by
  rw [startsAtStart, Bool.or_eq_true, Bool.and_eq_true, beq_iff_eq, beq_iff_eq, beq_iff_eq]

section
variable (k : Socket) (s : State)

/-- The starts of all sockets, at one that starts. -/
theorem startAll_starts (h : startsAtStart (s.sock k) = true) :
    let t := forSockets startAtStart s
    t.sock k = startingRecord (s.sock k) ∧ look t.heat k = startingHeat s k ∧ look t.tickResult k = none
      ∧ (∀ x, t.run k = some x → x.direction = .up ∧ x.profile = (s.sock k).params.upProfile)
      ∧ ∀ q rest, bothOff k s = true → look s.profiles (s.sock k).params.upProfile = .raise q :: rest →
        RaisesFirst k (s.sock k).params.upProfile q t := by
  intro t
  obtain ⟨u, hbefore, hafter⟩ := forSockets_at (StartsBeside.refl k) (fun _ _ _ => .trans)
    (fun j u hj => startAtStart_beside hj u) s
  have hsock := hbefore.sock
  have hstarts : startAtStart k u = enterStarting k u := by
    rw [startAtStart, hsock]
    exact if_pos h
  rw [hstarts] at hafter
  obtain ⟨hrecord, -, hheat, htick, hrun, -, -, heq, -⟩ := enterStarting_spec k u
  rw [hsock] at hrecord hrun
  have hheat' : startingHeat u k = startingHeat s k := by
    unfold startingHeat State.validTemp
    rw [hsock, hbefore.scan]
  refine ⟨hafter.sock.trans hrecord, ?_, ?_, fun x hx => ?_, fun q rest hoff hp => ?_⟩
  · rw [hafter.heat, hheat, look_put_same, hheat']
  · rw [hafter.tickResult, htick, look_put_same]
  · obtain ⟨y, hy, hdirection, hprofile, -⟩ := hafter.granted.run_shape hx
    rw [hdirection, hprofile]
    exact hrun y hy
  · have hoff' : bothOff k (startMade k u) = true := by
      refine bothOff_iff.mpr fun r => ?_
      show (u.rail k r).state = .off
      have hr := bothOff_iff.mp hoff r
      rcases hbefore.granted.1 r with hsame | ⟨hwait, -⟩
      · rw [hsame, hr]
      · exact absurd (hr.symm.trans hwait) nofun
    have hp' : look (startMade k u).profiles (s.sock k).params.upProfile = .raise q :: rest := by
      show look u.profiles _ = _
      rw [hbefore.profiles, hp]
    have hraising := runStarted_raising hp' hoff'
    rw [← startRun_eq, ← hsock, ← enterStarting_startMade] at hraising
    rw [← hsock]
    exact (hafter.raising _ _ hraising).1

/-- The starts of all sockets, at one that does not start. -/
theorem startAll_stands (h : ¬startsAtStart (s.sock k) = true) :
    StartsBeside k s (forSockets startAtStart s) := by
  obtain ⟨u, hbefore, hafter⟩ := forSockets_at (StartsBeside.refl k) (fun _ _ _ => .trans)
    (fun j u hj => startAtStart_beside hj u) s
  have hstands : startAtStart k u = u := by
    rw [startAtStart, hbefore.sock]
    exact if_neg h
  rw [hstands] at hafter
  exact hbefore.trans hafter

/-- The state in which the sockets start (R104, R148). -/
def runLoaded : State :=
  loadTimer .timer1 (loadTimer .timer0
    { s with mode := .run, runClock := 0, nextTick := some (s.now + 1000000) })

theorem runLoaded_timer (x : TimerId) : timerOf x (runLoaded s)
    = if 0 < intervalOf x s then .running (s.now + 1000 * intervalOf x s) else .stopped := by
  cases x <;> rfl

theorem runLoaded_frame {s t : State} (h : StartsOnly (runLoaded s) t) : t = { s with
    mode := .run
    runClock := 0
    nextTick := t.nextTick
    timers := t.timers
    sockets := t.sockets
    heat := t.heat
    tickResult := t.tickResult
    rails := t.rails
    runs := t.runs
    fails := t.fails
    supply := { s.supply with measured := t.supply.measured, grantSum := t.supply.grantSum } } := by
  have hnext : t.nextTick = (runLoaded s).nextTick := (congrArg State.nextTick h :)
  have htimers : t.timers = (runLoaded s).timers := (congrArg State.timers h :)
  rw [hnext, htimers]
  exact h

end

/-- Settles O29: the checks in order; then the timers, and each socket amid the starts of the others. -/
theorem startChecksAndBeginsTheRun : Obligations.StartChecksAndBeginsTheRun := by
  intro s hr checked upOk downOk targetOk edgesOk invalid starts
  have hexec : exec .start s = .next (start s) := exec_effect .start rfl hr
  have hup (k : Socket) : (startChecked s k && badUp s k) = false ↔ upOk k :=
    checkFails_iff (badUp_iff s k)
  have hdown (k : Socket) : (startChecked s k && badDown s k) = false ↔ downOk k :=
    checkFails_iff (badDown_iff s k)
  have htarget (k : Socket) : (startChecked s k && badTarget s k) = false ↔ targetOk k :=
    checkFails_iff (badTarget_iff s k)
  have hfail {item : StartItem} {number : Option Nat} (hm : s.mode = .config)
      (h : startFailure s = some (item, number)) : exec .start s
        = .next (s.reply .invalid (put1 item.code ++ put1 (number.getD 0xFF))) :=
    hexec.trans (congrArg _ (start_fails hm h))
  refine ⟨fun hm => refuses_of hexec (if_pos hm), fun hm ha => hfail hm (if_pos ha),
    fun hm ha ho => ?_, fun hm ha ho => ⟨fun k hk hlow => ?_, fun hups k hk hlow => ?_,
      fun hups hdowns k hk hlow => ?_, fun hups hdowns htargets i hi hlow => ?_,
      fun hups hdowns htargets hedges => ?_⟩⟩
  · exact hfail hm ((if_neg (not_not.mpr ha)).trans (if_pos ho))
  · refine hfail (item := .upProfile) (number := some k.val) hm ?_
    rw [startFailure_sockets ha ho, lowestSocket_some hup hk hlow]
  · refine hfail (item := .downProfile) (number := some k.val) hm ?_
    rw [startFailure_sockets ha ho, lowestSocket_none hup hups, lowestSocket_some hdown hk hlow]
  · refine hfail (item := .target) (number := some k.val) hm ?_
    rw [startFailure_sockets ha ho, lowestSocket_none hup hups, lowestSocket_none hdown hdowns,
      lowestSocket_some htarget hk hlow]
  · refine hfail (item := .slotEdges) (number := some i.val) hm ?_
    have hslot : allSlots.find? (badEdges s) = some i := by
      refine find_lowest (by decide) (mem_allSlots i) ?_ fun j hj => (badEdges_iff s j).mpr (hlow j hj)
      rw [← Bool.not_eq_false, badEdges_iff]
      exact hi
    rw [startFailure_sockets ha ho, lowestSocket_none hup hups, lowestSocket_none hdown hdowns,
      lowestSocket_none htarget htargets, hslot]
  · have hslots : allSlots.find? (badEdges s) = none := by
      refine List.find?_eq_none.mpr fun i _ => ?_
      rw [(badEdges_iff s i).mpr (hedges i)]
      exact Bool.false_ne_true
    have hpass : startFailure s = none := by
      rw [startFailure_sockets ha ho, lowestSocket_none hup hups, lowestSocket_none hdown hdowns,
        lowestSocket_none htarget htargets, hslots]
    have hstart : start s = replyMode (forSockets startAtStart (runLoaded s)) := by
      rw [start, if_neg (not_not.mpr hm), hpass]
      rfl
    have honly : StartsOnly (runLoaded s) (forSockets startAtStart (runLoaded s)) :=
      forSockets_rel StartsOnly (fun _ => rfl) (fun _ _ _ => .trans) _ startAtStart_frame _
    have hyes (k : Socket) (hk : starts k) := startAll_starts k (runLoaded s) ((startsAtStart_iff _).mpr hk)
    have hno (k : Socket) (hk : ¬starts k) := startAll_stands k (runLoaded s)
      fun h => hk ((startsAtStart_iff _).mp h)
    rw [hstart] at hexec
    have htimer := runLoaded_timer s
    generalize forSockets startAtStart (runLoaded s) = t at hexec honly hyes hno
    have hmode : t.mode = .run := (congrArg State.mode honly :)
    have htimers (x : TimerId) : timerOf x t = timerOf x (runLoaded s) :=
      (congrArg (timerOf x) honly :)
    refine ⟨_, hexec, hmode, (congrArg State.runClock honly :), (congrArg State.nextTick honly :),
      fun x => (htimers x).trans (htimer x), fun k hk => ?_, fun k hk => ?_, fun k x hk => ?_,
      fun k q rest hk hoff hp => ?_, ?_, ?_⟩
    · obtain ⟨hsock, hheat, htick, -⟩ := hyes k hk
      exact ⟨hsock, hheat, htick⟩
    · have hbeside := hno k hk
      exact ⟨hbeside.sock, hbeside.heat, hbeside.tickResult, hbeside.granted⟩
    · obtain ⟨-, -, -, hrun, -⟩ := hyes k hk
      exact hrun x
    · obtain ⟨-, -, -, -, hraises⟩ := hyes k hk
      exact hraises q rest hoff hp
    · show some (⟨.ok, put1 t.mode.code⟩ : Answer) = _
      rw [hmode]
      rfl
    · exact congrArg (fun u : State => { u with answer := (replyMode t).answer }) (runLoaded_frame honly)

end Sys2Proof.Machine
end

section
/-! SUPPORT. The proof of chapter 11's Shutdown: how rails subside, and what stopping every socket leaves of
each. -/

namespace Sys2Proof.Machine

/-! ### Rails that subside -/

/-- What a rail can become while its socket goes down and no RAISE begins: it stands, falls, leaves the waiting
list, or is granted. -/
def Subsides (r : RailKind) (s : State) (x y : Rail) : Prop :=
  y = x ∨ (x.state ≠ .off ∧ x.state ≠ .falling ∧ y = fallingRail r s)
    ∨ (x.state = .waitGrant ∧ (y = .off ∨ y.state = .rising))

section
variable {r : RailKind} {s : State} {x y z : Rail}

/-- A rail that is OFF or FALLING stands. -/
theorem Subsides.stands (h : Subsides r s x y) (hx : x.state = .off ∨ x.state = .falling) : y = x := by
  rcases h with h | ⟨hoff, hfalling, -⟩ | ⟨hwait, -⟩
  · exact h
  · rcases hx with hx | hx
    · exact absurd hx hoff
    · exact absurd hx hfalling
  · rw [hwait] at hx
    exact hx.elim nofun nofun

theorem Subsides.trans (h : Subsides r s x y) (g : Subsides r s y z) : Subsides r s x z := by
  rcases h with rfl | ⟨hoff, hfalling, rfl⟩ | ⟨hwait, rfl | hrising⟩
  · exact g
  · rw [g.stands (.inr rfl)]
    exact .inr (.inl ⟨hoff, hfalling, rfl⟩)
  · rw [g.stands (.inl rfl)]
    exact .inr (.inr ⟨hwait, .inl rfl⟩)
  · have hx : x.state ≠ .off ∧ x.state ≠ .falling := by
      rw [hwait]
      exact ⟨nofun, nofun⟩
    rcases g with rfl | ⟨-, -, rfl⟩ | ⟨hy, -⟩
    · exact .inr (.inr ⟨hwait, .inr hrising⟩)
    · exact .inr (.inl ⟨hx.1, hx.2, rfl⟩)
    · exact absurd (hrising.symm.trans hy) nofun

end

/-- A part of the run that moves a socket's rails downward, at one moment and under one board. -/
structure Subside (k : Socket) (s t : State) : Prop where
  now : t.now = s.now
  board : t.board = s.board
  rails : ∀ r, Subsides r s (s.rail k r) (t.rail k r)

theorem fallingRail_congr {s t : State} (hnow : t.now = s.now) (hboard : t.board = s.board)
    (r : RailKind) : fallingRail r t = fallingRail r s := by
  unfold fallingRail State.brd
  rw [hnow, hboard]

section
variable {k : Socket} {s t u : State}

theorem Subside.trans (h : Subside k s t) (g : Subside k t u) : Subside k s u := by
  refine ⟨g.now.trans h.now, g.board.trans h.board, fun r => (h.rails r).trans ?_⟩
  have hstep := g.rails r
  unfold Subsides at hstep ⊢
  rw [fallingRail_congr h.now h.board] at hstep
  exact hstep

theorem Subside.of_rails (h : RailsOnly s t) (hrails : t.rails = s.rails) : Subside k s t :=
  ⟨h.now, h.board, fun r => .inl (rail_of_rails hrails k r)⟩

theorem Subside.refl (k : Socket) (s : State) : Subside k s s := .of_rails (.refl s) rfl

theorem Subside.of_granted (hnow : t.now = s.now) (hboard : t.board = s.board) (h : GrantedAtMost k s t) :
    Subside k s t := by
  refine ⟨hnow, hboard, fun r => ?_⟩
  rcases h.1 r with hsame | ⟨hwait, hrises⟩
  · exact .inl hsame
  · exact .inr (.inr ⟨hwait, .inr hrises⟩)

theorem subside_grants (k : Socket) (s : State) : Subside k s (grantDecision s) :=
  .of_granted (grantDecision_only s).now (grantDecision_only s).board (grantDecision_granted s k)

theorem Subside.decided (h : Subside k s t) : Subside k s (grantDecision t) := h.trans (subside_grants k t)

theorem subside_enters {r : RailKind} {x : Rail} (h : Subsides r s (s.rail k r) x) :
    Subside k s (enterRail k r x s) := by
  refine ⟨rfl, rfl, fun q => ?_⟩
  rw [enterRail_rail]
  by_cases hq : q = r
  · subst hq
    rw [if_pos ⟨rfl, rfl⟩]
    exact h
  · rw [if_neg fun hc => hq hc.2]
    exact .inl rfl

theorem subside_setRun (k : Socket) (v : Option Run) (s : State) : Subside k s (s.setRun k v) :=
  .of_rails (setRun_only k v s) rfl

theorem subside_setCond (k : Socket) (c : StepCondition) (s : State) : Subside k s (setCond k c s) :=
  .of_rails (setCond_only k c s) (setCond_rails k c s)

theorem subside_setStep (k : Socket) (i : Nat) (c : StepCondition) (s : State) :
    Subside k s (setStep k i c s) := by
  refine .of_rails (setStep_only k i c s) ?_
  unfold setStep
  split <;> rfl

theorem subside_dropRail (k : Socket) (r : RailKind) (s : State) : Subside k s (dropRail k r s) := by
  unfold dropRail
  split
  case h_1 hs => exact subside_enters (.inr (.inl ⟨by rw [hs]; exact nofun, by rw [hs]; exact nofun, rfl⟩))
  case h_2 hs => exact subside_enters (.inr (.inl ⟨by rw [hs]; exact nofun, by rw [hs]; exact nofun, rfl⟩))
  case h_3 hs => exact subside_enters (.inr (.inr ⟨hs, .inl rfl⟩))
  all_goals exact .refl k s

theorem subside_finishRun (k : Socket) (s : State) : Subside k s (finishRun k s) := by
  unfold finishRun
  split
  · exact .refl k s
  · split
    · exact subside_setRun k none s
    · have hdrop : Subside k s (dropBoth k s) := (subside_dropRail k .core s).trans (subside_dropRail k .aux _)
      have hend : Subside k s (if bothOff k (dropBoth k s) = true then (dropBoth k s).setRun k none
          else setCond k .falling (dropBoth k s)) := by
        split
        · exact hdrop.trans (subside_setRun k none _)
        · exact hdrop.trans (subside_setCond k .falling _)
      dsimp only
      split
      · exact hend.decided
      · exact hend

/-- The steps of a down-profile raise no rail. -/
theorem subside_runSteps {l : List Step} (hl : downValid l = true) (i : Nat) (s : State) :
    Subside k s (runSteps l i k s) := by
  induction l generalizing i s with
  | nil => exact subside_finishRun k s
  | cons x rest ih =>
    rw [downValid, List.all_cons, Bool.and_eq_true] at hl
    obtain ⟨hx, hrest⟩ := hl
    have hset (c : StepCondition) : Subside k s (setStep k i c s) := subside_setStep k i c s
    have hdrop (c : StepCondition) (r : RailKind) : Subside k s (dropRail k r (setStep k i c s)) :=
      (hset c).trans (subside_dropRail k r _)
    unfold runSteps
    split
    · exact absurd hx Bool.false_ne_true
    · split
      · exact hdrop _ _
      · exact (hdrop _ _).decided
      · exact hset _
      · exact (hdrop _ _).trans (ih hrest _ _)
      · exact (hset _).trans (ih hrest _ _)
    all_goals exact hset _

theorem subside_startRun {d : RunDirection} {p : ProfileId} (hl : downValid (look s.profiles p) = true) :
    Subside k s (startRun k d p s) := (subside_setRun k _ s).trans (subside_runSteps hl _ _)

end

/-! ### The abandonment of an UP run (R61) -/

/-- A rail after the abandonment of its socket's UP run. -/
def abandonedRail (r : RailKind) (s : State) (x : Rail) : Rail :=
  match x.state with
  | .rising => fallingRail r s
  | .waitGrant => .off
  | .off | .on | .falling => x

theorem abandonedRail_subsides (r : RailKind) (s : State) (x : Rail) :
    Subsides r s x (abandonedRail r s x) := by
  unfold abandonedRail
  split
  case h_1 hs => exact .inr (.inl ⟨by rw [hs]; exact nofun, by rw [hs]; exact nofun, rfl⟩)
  case h_2 hs => exact .inr (.inr ⟨hs, .inl rfl⟩)
  all_goals exact .inl rfl

theorem abandonedRail_waits_not (r : RailKind) (s : State) (x : Rail) :
    (abandonedRail r s x).state ≠ .waitGrant := by
  unfold abandonedRail
  split
  case h_1 | h_2 => exact nofun
  all_goals
    rename_i hs
    rw [hs]
    exact nofun

section
variable {k : Socket} {s : State}

theorem abandonRail_rail (k : Socket) (q r : RailKind) (s : State) : (abandonRail k q s).rail k r
    = if r = q then abandonedRail q s (s.rail k q) else s.rail k r := by
  have henters (x : Rail) : (enterRail k q x s).rail k r = if r = q then x else s.rail k r := by
    rw [enterRail_rail]
    exact if_congr (and_iff_right rfl) rfl rfl
  have hstands : s.rail k r = if r = q then s.rail k q else s.rail k r := by
    split
    · subst_vars
      rfl
    · rfl
  unfold abandonRail dropRail abandonedRail
  cases hs : (s.rail k q).state with
  | rising => exact henters _
  | waitGrant => exact henters _
  | off => exact hstands
  | on => exact hstands
  | falling => exact hstands

/-- Every rail of a socket whose UP run is abandoned. -/
theorem abandonUp_rail (h : s.run k ≠ none) (r : RailKind) :
    (abandonUp k s).rail k r = abandonedRail r s (s.rail k r) := by
  have hboth : (abandonRail k .aux (abandonRail k .core s)).rail k r = abandonedRail r s (s.rail k r) := by
    have hcore := abandonRail_only k .core s
    have hfall : abandonedRail .aux (abandonRail k .core s) (s.rail k .aux)
        = abandonedRail .aux s (s.rail k .aux) := by
      unfold abandonedRail
      rw [fallingRail_congr hcore.now hcore.board]
    cases r with
    | core => rw [abandonRail_rail, if_neg nofun, abandonRail_rail, if_pos rfl]
    | aux => rw [abandonRail_rail, if_pos rfl, abandonRail_rail, if_neg nofun, hfall]
  unfold abandonUp
  split
  · rename_i hnone
    exact absurd hnone h
  · dsimp only
    split
    · rcases (grantDecision_granted ((abandonRail k .aux (abandonRail k .core s)).setRun k none) k).1 r
        with hsame | ⟨hwait, -⟩
      · exact hsame.trans hboth
      · exact absurd ((congrArg Rail.state hboth.symm).trans hwait) (abandonedRail_waits_not r s _)
    · exact hboth

theorem subside_abandonUp (k : Socket) (s : State) : Subside k s (abandonUp k s) := by
  by_cases h : s.run k = none
  · have hstands : abandonUp k s = s := by rw [abandonUp, h]
    rw [hstands]
    exact .refl k s
  · refine ⟨(abandonUp_only k s).now, (abandonUp_only k s).board, fun r => ?_⟩
    rw [abandonUp_rail h]
    exact abandonedRail_subsides r s _

end

/-! ### A DOWN run goes on until both rails are OFF (R62) -/

/-- The socket's run is a DOWN run. -/
def GoesDown (k : Socket) (s : State) : Prop := ∃ x, s.run k = some x ∧ x.direction = .down

section
variable {k : Socket} {s t : State}

theorem GoesDown.of_runs (h : GoesDown k s) (ht : t.runs = s.runs) : GoesDown k t := by
  obtain ⟨x, hx, hd⟩ := h
  exact ⟨x, (run_of_runs ht k).trans hx, hd⟩

theorem GoesDown.granted (h : GoesDown k s) (hg : GrantedAtMost k s t) : GoesDown k t := by
  obtain ⟨x, hx, hd⟩ := h
  rcases hg.2 with hsame | ⟨y, hy, hrises⟩
  · exact ⟨x, hsame.trans hx, hd⟩
  · rw [hx, Option.some.injEq] at hy
    subst hy
    exact ⟨_, hrises, hd⟩

theorem GoesDown.decided (h : GoesDown k s) : GoesDown k (grantDecision s) :=
  h.granted (grantDecision_granted s k)

theorem GoesDown.cond (h : GoesDown k s) (c : StepCondition) : GoesDown k (setCond k c s) := by
  obtain ⟨x, hx, hd⟩ := h
  refine ⟨{ x with cond := c }, ?_, hd⟩
  rw [setCond_run, if_pos rfl, hx]
  rfl

theorem GoesDown.step (h : GoesDown k s) (i : Nat) (c : StepCondition) : GoesDown k (setStep k i c s) := by
  obtain ⟨x, hx, hd⟩ := h
  rw [setStep_stands hx]
  exact ⟨_, runStands_run k x i c s, hd⟩

theorem GoesDown.joined (h : GoesDown k s) (r : RailKind) : GoesDown k (joinList k r s) := by
  have hwaits : GoesDown k (enterRail k r ⟨.waitGrant, none, 0⟩ s) := h.of_runs rfl
  exact (hwaits.cond .waitGrant).decided

theorem GoesDown.finished (h : GoesDown k s) : GoesDown k (finishRun k s) ∨ AtRest k (finishRun k s) := by
  have hdrop : GoesDown k (dropBoth k s) := h.of_runs ((dropRail_runs k .aux _).trans (dropRail_runs k .core s))
  obtain ⟨x, hx, hd⟩ := h
  have hend : GoesDown k (if bothOff k (dropBoth k s) = true then (dropBoth k s).setRun k none
        else setCond k .falling (dropBoth k s))
      ∨ AtRest k (if bothOff k (dropBoth k s) = true then (dropBoth k s).setRun k none
        else setCond k .falling (dropBoth k s)) := by
    split
    · rename_i hoff
      exact .inr ⟨hoff, by rw [setRun_run, if_pos rfl]⟩
    · exact .inl (hdrop.cond _)
  rw [finishRun, hx]
  dsimp only
  rw [hd]
  dsimp only
  split
  · exact hend.imp GoesDown.decided (.granted (grantDecision_granted _ k))
  · exact hend

theorem GoesDown.steps {l : List Step} {i : Nat} (h : GoesDown k s) :
    GoesDown k (runSteps l i k s) ∨ AtRest k (runSteps l i k s) := by
  induction l generalizing i s with
  | nil => exact h.finished
  | cons x rest ih =>
    have hdrop (c : StepCondition) (r : RailKind) : GoesDown k (dropRail k r (setStep k i c s)) :=
      (h.step i c).of_runs (dropRail_runs k r _)
    unfold runSteps
    split
    · split
      · exact .inl ((h.step i _).joined _)
      · exact ih (h.step i _)
      all_goals exact .inl (h.step i _)
    · split
      · exact .inl (hdrop _ _)
      · exact .inl (hdrop _ _).decided
      · exact .inl (h.step i _)
      · exact ih (hdrop _ _)
      · exact ih (h.step i _)
    all_goals exact .inl (h.step i _)

theorem startRun_goesDown (k : Socket) (p : ProfileId) (s : State) :
    GoesDown k (startRun k .down p s) ∨ AtRest k (startRun k .down p s) :=
  GoesDown.steps ⟨_, (setRun_run k _ s k).trans (if_pos rfl), rfl⟩

end

end Sys2Proof.Machine
end

section
/-! SUPPORT. The proof of chapter 11's Shutdown: each socket's stop amid the stops of the others. -/

namespace Sys2Proof.Machine

/-! ### The stop of another socket -/

/-- What the stop of another socket leaves of socket `k` and of what its own stop reads. -/
structure StopsBeside (k : Socket) (s t : State) : Prop where
  sock : t.sock k = s.sock k
  heat : look t.heat k = look s.heat k
  mon : look t.mon k = look s.mon k
  applied : look t.supply.applied k = look s.supply.applied k
  active : look t.active k = look s.active k
  heaterOn : look t.heaterOn k = look s.heaterOn k
  heaterOff : look t.heaterOff k = look s.heaterOff k
  profiles : t.profiles = s.profiles
  now : t.now = s.now
  board : t.board = s.board
  granted : GrantedAtMost k s t

theorem StopsBeside.refl (k : Socket) (s : State) : StopsBeside k s s :=
  ⟨rfl, rfl, rfl, rfl, rfl, rfl, rfl, rfl, rfl, rfl, .refl k s⟩

theorem StopsBeside.trans {k : Socket} {s t u : State} (h : StopsBeside k s t) (g : StopsBeside k t u) :
    StopsBeside k s u :=
  ⟨g.sock.trans h.sock, g.heat.trans h.heat, g.mon.trans h.mon, g.applied.trans h.applied,
    g.active.trans h.active, g.heaterOn.trans h.heaterOn, g.heaterOff.trans h.heaterOff,
    g.profiles.trans h.profiles, g.now.trans h.now, g.board.trans h.board, h.granted.trans g.granted⟩

theorem StopsBeside.subside {k : Socket} {s t : State} (h : StopsBeside k s t) : Subside k s t :=
  .of_granted h.now h.board h.granted

theorem live_of_sock {k : Socket} {s t : State} (h : t.sock k = s.sock k) : t.live k = s.live k := by
  rw [live_eq, live_eq, h]

theorem stopAtShutdown_live {k : Socket} {s : State} (h : s.live k = true) :
    stopAtShutdown k s = stopSocketBy k .toIdle s :=
  (if_pos h).trans (takeOrder_live (o := ⟨k, .toIdle⟩) h)

theorem stopAtShutdown_beside {j k : Socket} (hj : j ≠ k) (s : State) :
    StopsBeside k s (stopAtShutdown j s) := by
  cases hl : s.live j with
  | false =>
    rw [stopAtShutdown, if_neg (by rw [hl]; exact Bool.false_ne_true)]
    exact .refl k s
  | true =>
    rw [stopAtShutdown_live hl]
    obtain ⟨-, hsock, -, -, -, -, -, -, -, -, -, -, -, -, hgranted, hothers⟩ :=
      stopSocketBy_stops j .toIdle s
    have hframe := stopSocketBy_frame j .toIdle s
    obtain ⟨hheat, hmon, hactive, hon, hoff, happlied⟩ := hothers k hj.symm
    exact ⟨hsock k hj.symm, hheat, hmon, happlied, hactive, hon, hoff,
      (congrArg State.profiles hframe :), (congrArg State.now hframe :), (congrArg State.board hframe :),
      hgranted k hj.symm⟩

/-! ### The stop of one socket -/

theorem abandonedRail_down {r : RailKind} {s : State} {x : Rail}
    (h : x.state = .rising ∨ x.state = .waitGrant) :
    (abandonedRail r s x).state = .off ∨ (abandonedRail r s x).state = .falling := by
  unfold abandonedRail
  rcases h with h | h
  · rw [h]
    exact .inr rfl
  · rw [h]
    exact .inl rfl

theorem abandonedRail_congr {r : RailKind} {s t : State} (h : fallingRail r t = fallingRail r s) (x : Rail) :
    abandonedRail r t x = abandonedRail r s x := by
  unfold abandonedRail
  rw [h]

section
variable {k : Socket} {s : State}

/-- The Rail Sequencer's part of a stop, on the rails of the socket. -/
theorem stopRun_subside (hl : downValid (look s.profiles (s.sock k).params.downProfile) = true) :
    Subside k s (stopRun k s) := by
  unfold stopRun
  dsimp only
  split
  · have honly := abandonUp_only k s
    refine (subside_abandonUp k s).trans (subside_startRun ?_)
    rw [honly.sock, honly.profiles]
    exact hl
  · exact subside_startRun hl

/-- The rails of a socket whose UP run is abandoned stand as that leaves them. -/
theorem stopRun_abandons (hl : downValid (look s.profiles (s.sock k).params.downProfile) = true)
    (hs : (s.sock k).state = .starting) (hrun : s.run k ≠ none) (r : RailKind)
    (hr : (s.rail k r).state = .rising ∨ (s.rail k r).state = .waitGrant) :
    (stopRun k s).rail k r = abandonedRail r s (s.rail k r) := by
  have honly := abandonUp_only k s
  have hstart : Subside k (abandonUp k s)
      (startRun k .down ((abandonUp k s).sock k).params.downProfile (abandonUp k s)) := by
    refine subside_startRun ?_
    rw [honly.sock, honly.profiles]
    exact hl
  have hstop : stopRun k s
      = startRun k .down ((abandonUp k s).sock k).params.downProfile (abandonUp k s) := by
    rw [stopRun, if_pos hs]
  have hrail := hstart.rails r
  rw [abandonUp_rail hrun r] at hrail
  rw [hstop]
  exact hrail.stands (abandonedRail_down hr)

theorem stopRun_goesDown (k : Socket) (s : State) : GoesDown k (stopRun k s) ∨ AtRest k (stopRun k s) :=
  startRun_goesDown k _ _

end

/-! ### The stops of all sockets -/

/-- What the stops of all sockets may change. -/
def StopsOnly (s t : State) : Prop :=
  t = { s with
    sockets := t.sockets
    heat := t.heat
    active := t.active
    heaterOn := t.heaterOn
    heaterOff := t.heaterOff
    mon := t.mon
    rails := t.rails
    runs := t.runs
    fails := t.fails
    supply := { s.supply with
      measured := t.supply.measured, grantSum := t.supply.grantSum, applied := t.supply.applied } }

theorem StopsOnly.trans {s t u : State} (h : StopsOnly s t) (g : StopsOnly t u) : StopsOnly s u := by
  unfold StopsOnly at h g ⊢
  rw [g, h]

theorem stopAtShutdown_frame (k : Socket) (s : State) : StopsOnly s (stopAtShutdown k s) := by
  cases hl : s.live k with
  | false =>
    rw [stopAtShutdown, if_neg (by rw [hl]; exact Bool.false_ne_true)]
    rfl
  | true =>
    rw [stopAtShutdown_live hl]
    have hframe := stopSocketBy_frame k .toIdle s
    unfold StopFrame at hframe
    rw [stopSocketBy_orders, stopSocketBy_answer] at hframe
    exact hframe

/-- What the stops of all sockets leave of one that was running. -/
structure StoppedAmid (k : Socket) (s t : State) : Prop where
  sock : t.sock k = stoppedRecord .toIdle (s.sock k)
  heat : (look t.heat k).demand = 0
  applied : look t.supply.applied k = 0
  active : look t.active k = 0
  heaterOn : look t.heaterOn k = false
  window : windowOf k t = none
  run : ∀ x, t.run k = some x → x.direction = .down ∧ x.profile = (s.sock k).params.downProfile
  ends : t.run k = none → bothOff k t = true
  rails : downValid (look s.profiles (s.sock k).params.downProfile) = true → ∀ r,
    Subsides r s (s.rail k r) (t.rail k r)
  rising : downValid (look s.profiles (s.sock k).params.downProfile) = true →
    (s.sock k).state = .starting → s.run k ≠ none → ∀ r, (s.rail k r).state = .rising →
    t.rail k r = fallingRail r s
  waiting : downValid (look s.profiles (s.sock k).params.downProfile) = true →
    (s.sock k).state = .starting → s.run k ≠ none → ∀ r, (s.rail k r).state = .waitGrant →
    t.rail k r = .off ∨ t.rail k r = fallingRail r s

section
variable (k : Socket) (s : State)

theorem stopAll_live (h : s.live k = true) : StoppedAmid k s (forSockets stopAtShutdown s) := by
  obtain ⟨u, hbefore, hafter⟩ := forSockets_at (StopsBeside.refl k) (fun _ _ _ => .trans)
    (fun j u hj => stopAtShutdown_beside hj u) s
  have hlive : u.live k = true := (live_of_sock hbefore.sock).trans h
  rw [stopAtShutdown_live hlive] at hafter
  obtain ⟨hsock, -, hheat, happlied, hactive, hon, -, hmon, hrun, hrails, hruns, -⟩ :=
    stopSocketBy_stops k .toIdle u
  have hframe := stopSocketBy_frame k .toIdle u
  rw [← stopRun_eq] at hrails hruns
  rw [hbefore.sock] at hsock hrun
  generalize stopSocketBy k .toIdle u = v at hafter hsock hheat happlied hactive hon hmon hrun hrails hruns hframe
  generalize forSockets stopAtShutdown s = t at hafter
  have hrest : GoesDown k v ∨ AtRest k v := by
    refine (stopRun_goesDown k u).imp (fun hg => hg.of_runs hruns) fun hg => ?_
    exact hg.granted (.of_eq (rail_of_rails hrails k) (run_of_runs hruns k))
  have hvalid (hl : downValid (look s.profiles (s.sock k).params.downProfile) = true) :
      downValid (look u.profiles (u.sock k).params.downProfile) = true := by
    rw [hbefore.sock, hbefore.profiles]
    exact hl
  have hpart (hl : downValid (look s.profiles (s.sock k).params.downProfile) = true) : Subside k u v := by
    refine ⟨(congrArg State.now hframe :), (congrArg State.board hframe :), fun r => ?_⟩
    rw [rail_of_rails hrails]
    exact (stopRun_subside (hvalid hl)).rails r
  have habandoned (hl : downValid (look s.profiles (s.sock k).params.downProfile) = true)
      (hs : (s.sock k).state = .starting) (hr : s.run k ≠ none) (r : RailKind)
      (hup : (u.rail k r).state = .rising ∨ (u.rail k r).state = .waitGrant) :
      t.rail k r = abandonedRail r s (u.rail k r) := by
    have hstarting : (u.sock k).state = .starting := by
      rw [hbefore.sock]
      exact hs
    have hrunning : u.run k ≠ none := by
      rcases hbefore.granted.2 with hsame | ⟨x, -, hx⟩
      · rw [hsame]
        exact hr
      · rw [hx]
        exact Option.some_ne_none _
    have hv : v.rail k r = abandonedRail r u (u.rail k r) :=
      (rail_of_rails hrails k r).trans (stopRun_abandons (hvalid hl) hstarting hrunning r hup)
    have hstands : t.rail k r = v.rail k r :=
      (hafter.subside.rails r).stands (by rw [hv]; exact abandonedRail_down hup)
    rw [hstands, hv, abandonedRail_congr (fallingRail_congr hbefore.now hbefore.board r)]
  refine ⟨hafter.sock.trans hsock, ?_, ?_, ?_, ?_, ?_, fun x hx => ?_, fun hnone => ?_, fun hl r => ?_,
    fun hl hs hr r hup => ?_, fun hl hs hr r hwait => ?_⟩
  · rw [hafter.heat, hheat]
  · rw [hafter.applied, happlied]
  · rw [hafter.active, hactive]
  · rw [hafter.heaterOn, hon]
  · rw [windowOf, hafter.mon, hmon]
  · obtain ⟨y, hy, hd, hp, -⟩ := hafter.granted.run_shape hx
    rw [hd, hp]
    exact hrun y hy
  · rcases hrest with hg | hg
    · obtain ⟨x, hx, -⟩ := hg.granted hafter.granted
      rw [hnone] at hx
      cases hx
    · exact (hg.granted hafter.granted).1
  · exact ((hbefore.subside.trans (hpart hl)).trans hafter.subside).rails r
  · have hstill : u.rail k r = s.rail k r := by
      rcases hbefore.granted.1 r with hsame | ⟨hwait, -⟩
      · exact hsame
      · exact absurd (hup.symm.trans hwait) nofun
    rw [habandoned hl hs hr r (.inl (by rw [hstill]; exact hup)), hstill, abandonedRail, hup]
  · rcases hbefore.granted.1 r with hsame | ⟨-, hrises⟩
    · refine .inl ?_
      rw [habandoned hl hs hr r (.inr (by rw [hsame]; exact hwait)), hsame, abandonedRail, hwait]
    · refine .inr ?_
      rw [habandoned hl hs hr r (.inl hrises), abandonedRail, hrises]

theorem stopAll_idle (h : s.live k = false) : StopsBeside k s (forSockets stopAtShutdown s) := by
  obtain ⟨u, hbefore, hafter⟩ := forSockets_at (StopsBeside.refl k) (fun _ _ _ => .trans)
    (fun j u hj => stopAtShutdown_beside hj u) s
  have hstands : stopAtShutdown k u = u := by
    rw [stopAtShutdown, live_of_sock hbefore.sock, h]
    rfl
  rw [hstands] at hafter
  exact hbefore.trans hafter

end

theorem abortPending_eq (x : Slot) :
    abortPending x = if x.state = .pending then { x with state := .idle, last := .aborted } else x := by
  unfold abortPending
  cases hs : x.state with
  | pending => exact (if_pos rfl).symm
  | idle => exact (if_neg nofun).symm
  | active => exact (if_neg nofun).symm

/-- The state in which the sockets are stopped (R104, R115). -/
def shutdownMade (s : State) : State := shutdownBursts { s with mode := .shutdown }

theorem shutdown_accepted {s : State} (h : s.mode = .run ∨ s.mode = .pause) :
    shutdown s = replyMode (endShutdown (forSockets stopAtShutdown (shutdownMade s))) := by
  unfold shutdown
  rcases h with h | h <;> rw [h] <;> rfl

/-- The board leaves SHUTDOWN at once where no socket runs or stops (R158). -/
theorem endShutdown_cases {t : State} (hm : t.mode = .shutdown) (ht : t.timers = ⟨.stopped, .stopped⟩) :
    ∃ m n, endShutdown t = { t with mode := m, nextTick := n }
      ∧ ((∀ j, t.busy j = false) → m = .config ∧ n = none)
      ∧ ((∃ j, t.busy j = true) → m = .shutdown ∧ n = t.nextTick) := by
  rw [endShutdown_eq]
  by_cases hb : ∀ j, t.busy j = false
  · refine ⟨.config, none, ?_, fun _ => ⟨rfl, rfl⟩, fun ⟨j, hj⟩ => ?_⟩
    · rw [if_pos ⟨hm, hb⟩, ← ht]
    · rw [hb j] at hj
      cases hj
  · refine ⟨.shutdown, t.nextTick, ?_, fun h => absurd h hb, fun _ => ⟨rfl, rfl⟩⟩
    rw [if_neg fun h => hb h.2, ← hm]

theorem shutdownMade_frame {s t : State} (h : StopsOnly (shutdownMade s) t) : t = { s with
    mode := t.mode
    sockets := t.sockets
    rails := t.rails
    runs := t.runs
    fails := t.fails
    heat := t.heat
    active := t.active
    heaterOn := t.heaterOn
    heaterOff := t.heaterOff
    mon := t.mon
    slots := t.slots
    timers := t.timers
    supply := { s.supply with
      measured := t.supply.measured, grantSum := t.supply.grantSum, applied := t.supply.applied } } := by
  have hmode : t.mode = .shutdown := (congrArg State.mode h :)
  have hslots : t.slots = (shutdownMade s).slots := (congrArg State.slots h :)
  have htimers : t.timers = ⟨.stopped, .stopped⟩ := (congrArg State.timers h :)
  rw [hmode, hslots, htimers]
  exact h

/-- Every socket after the stops: STOPPING where it was running, else as it was. -/
theorem stopAll_sock (k : Socket) (s : State) : (forSockets stopAtShutdown s).sock k
    = if s.live k = true then { s.sock k with state := .stopping, stopDest := some .idle } else s.sock k := by
  cases hl : s.live k with
  | true => exact (stopAll_live k s hl).sock
  | false => exact (stopAll_idle k s hl).sock

theorem stopAll_busy (k : Socket) (s : State) : (forSockets stopAtShutdown s).busy k = s.busy k := by
  rw [busy_eq, stopAll_sock]
  split
  · rename_i hl
    rw [busy_of_live hl]
    rfl
  · exact (busy_eq s k).symm

/-- Settles O31: each socket's stop amid the others; then SHUTDOWN, or CONFIG where none runs. -/
theorem shutdownStopsEveryRunningSocket : Obligations.ShutdownStopsEveryRunningSocket := by
  intro s hr
  have hexec : exec .shutdown s = .next (shutdown s) := exec_effect .shutdown rfl hr
  refine ⟨fun hrun hpause => refuses_of hexec ?_, fun hm => ?_⟩
  · unfold shutdown
    split
    · rename_i h
      exact absurd h hrun
    · rename_i h
      exact absurd h hpause
    all_goals rfl
  · rw [shutdown_accepted hm] at hexec
    have honly : StopsOnly (shutdownMade s) (forSockets stopAtShutdown (shutdownMade s)) :=
      forSockets_rel StopsOnly (fun _ => rfl) (fun _ _ _ => .trans) _ stopAtShutdown_frame _
    have hlive (k : Socket) (hk : s.live k = true) := stopAll_live k (shutdownMade s) hk
    have hidle (k : Socket) (hk : s.live k = false) := stopAll_idle k (shutdownMade s) hk
    have hsock (k : Socket) := stopAll_sock k (shutdownMade s)
    have hbusy (k : Socket) : (forSockets stopAtShutdown (shutdownMade s)).busy k = s.busy k :=
      stopAll_busy k (shutdownMade s)
    generalize forSockets stopAtShutdown (shutdownMade s) = t at hexec honly hlive hidle hsock hbusy
    have htimers : t.timers = ⟨.stopped, .stopped⟩ := (congrArg State.timers honly :)
    obtain ⟨m, n, hend, hnone, hsome⟩ := endShutdown_cases (congrArg State.mode honly :) htimers
    rw [hend] at hexec
    refine ⟨_, hexec, hsock, fun k hk => ?_, fun k hk => ?_, ?_, fun i => ?_, htimers,
      (congrArg State.bus honly :), (congrArg State.log honly :), (congrArg State.runClock honly :),
      fun h => ?_, fun ⟨j, hj⟩ => ?_⟩
    · have hstop := hlive k hk
      refine ⟨hstop.heat, hstop.applied, hstop.active, hstop.heaterOn, hstop.window, hstop.run, hstop.ends,
        fun hl r => ⟨(hstop.rails hl r).stands, fun hon => ?_, fun hs hrun =>
          ⟨hstop.rising hl hs hrun r, hstop.waiting hl hs hrun r⟩⟩⟩
      rcases hstop.rails hl r with h | ⟨-, -, h⟩ | ⟨h, -⟩
      · exact .inl h
      · exact .inr h
      · exact absurd (hon.symm.trans h) nofun
    · have hbeside := hidle k hk
      exact ⟨hbeside.granted, hbeside.heat, hbeside.mon, hbeside.applied, hbeside.active, hbeside.heaterOn,
        hbeside.heaterOff⟩
    · exact congrArg (fun u : State => { u with
        mode := m, nextTick := n, answer := some ⟨.ok, put1 m.code⟩ }) (shutdownMade_frame honly)
    · have hslots : t.slots = (shutdownMade s).slots := (congrArg State.slots honly :)
      rw [← abortPending_eq]
      show look t.slots i = _
      rw [hslots]
      exact look_tab8 _ i
    · obtain ⟨rfl, rfl⟩ := hnone fun j => (hbusy j).trans (h j)
      exact ⟨rfl, rfl, rfl⟩
    · obtain ⟨rfl, rfl⟩ := hsome ⟨j, (hbusy j).trans hj⟩
      exact ⟨rfl, (congrArg State.nextTick honly :), rfl⟩

end Sys2Proof.Machine
end
